-- ==== Sys2Proof/Word.lean ====
section
/-! DEFINITION. The widths of spec/00_scope.md R6, as bit vectors. Bit 0 of the manual is the MOST
significant bit (R8); manual bit `b` of an `n`-bit value is Lean's bit `n - 1 - b`. -/

namespace Sys2Proof

/-- A byte, the unit of addressing (R6). -/
abbrev Byte := BitVec 8

/-- A halfword (R6). -/
abbrev Half := BitVec 16

/-- A word, the width of a general register (R6). -/
abbrev Word := BitVec 32

/-- A doubleword: an even/odd register pair or two memory words (R6, R23). -/
abbrev Double := BitVec 64

/-- A real byte address, or an extended logical one: 24 bits (R6). -/
abbrev Addr := BitVec 24

/-- The number of a general purpose register, as the three-bit R field holds it (R22). -/
abbrev Reg := BitVec 3

/-- The number of a priority level, X'00' to X'7F' (R6, R540). -/
abbrev Level := BitVec 7

end Sys2Proof
end

