-- ==== Sys2Proof/Config.lean ====
section
/-! DEFINITION. What an installation fixes (the named parameters of spec/00_scope.md R7), as plain data, and
the free values: constants with no body, of which nothing can be proved. -/

namespace Sys2Proof

/-- The processor's role, fixed by a jumper (10_state.md R21). -/
inductive Role where
  | cpu
  | ipu
  deriving DecidableEq, Repr

/-- The classes of I/O processor (53_input_output.md R571). -/
inductive ChannelClass where
  | class0
  | class1
  | class2
  | class3
  | classE
  | classF
  deriving DecidableEq, Repr

/-- One device address of the ICL deck, with its class and Service Interrupt level (R571). -/
structure Channel where
  device : BitVec 7
  cls    : ChannelClass
  level  : Level
  deriving DecidableEq, Repr

/-- A run of real byte addresses that have memory behind them (`MEM_PRESENT`, R7). -/
structure MemRange where
  base : Nat
  size : Nat
  deriving DecidableEq, Repr

/-- The installed Writable Control Storage: none, one or two boards of 2,048 words (43_wcs.md R280). -/
inductive WcsBoards where
  | none
  | one
  | two
  deriving DecidableEq, Repr

/-- `WCS_WORDS` (R7). -/
def WcsBoards.words : WcsBoards → Nat
  | .none => 0
  | .one => 2048
  | .two => 4096

/-- The configuration of one processor and its system (R7). It is part of the state, so that every
statement about all states holds for every configuration; no instruction changes it. -/
structure Config where
  role               : Role
  psdJumper          : Bool
  ipuPresent         : Bool
  memPresent         : List MemRange
  wcsBoards          : WcsBoards
  channels           : List Channel
  levels             : List Level
  rtomSoftwareEnable : Bool
  spadMpl            : BitVec 8
  cswAddr            : Addr
  iplDefaultDevice   : BitVec 15
  deriving DecidableEq, Repr

/-- `n` consecutive device addresses from `device` on one controller (`,NN` of a `*DEV` record, R571). -/
def Config.devices (cls : ChannelClass) (level : Level) (device : BitVec 7) : Nat → List Channel
  | 0 => []
  | n + 1 => ⟨device, cls, level⟩ :: Config.devices cls level (device + 1) n

/-- The configuration at reset: the defaults of 92_eei_decisions.md part 2 and the sample ICL deck of
70_reset_and_hazards.md R712. DESIGN CHOICE, unsafe (log 2): an installation may differ in every field. -/
def Config.default : Config where
  role := .cpu
  psdJumper := true
  ipuPresent := false
  memPresent := [⟨0, 0x80000⟩]
  wcsBoards := .none
  channels :=
    Config.devices .classE 0x15 0x04 2 ++ Config.devices .classE 0x16 0x08 4 ++
    Config.devices .classE 0x18 0x10 4 ++ Config.devices .classE 0x1A 0x20 16 ++
    Config.devices .classE 0x1E 0x60 8 ++ Config.devices .class1 0x20 0x78 1 ++
    Config.devices .class0 0x21 0x7A 1 ++ Config.devices .class2 0x23 0x7E 1
  levels := [0x00, 0x01, 0x12, 0x13, 0x24, 0x25, 0x26, 0x27, 0x28, 0x29, 0x2A, 0x2B, 0x2C, 0x2D,
    0x15, 0x16, 0x18, 0x1A, 0x1E, 0x20, 0x21, 0x23]
  rtomSoftwareEnable := true
  spadMpl := 0xF3
  cswAddr := 0
  iplDefaultDevice := 0

/-- The Class F operations a channel answers (53_input_output.md R570). -/
inductive ClassFOp where
  | sio
  | tio
  | stpio
  | rschnl
  | hio
  | grio
  | rsctl
  | ecwcs
  | wcwcs
  | eci
  | dci
  | aci
  | daci
  deriving DecidableEq, Repr

/-- The seven assigned Class F condition codes (R590): "only the assigned patterns will occur". -/
inductive ClassFAnswer where
  | activated
  | channelBusy
  | inoperable
  | subchannelBusy
  | statusStored
  | unsupported
  | queued
  deriving DecidableEq, Repr, Inhabited

/-- What a channel hands over when it reports status: the real address it chose and the two status words
(R594). -/
structure ChannelStatus where
  addr  : Addr
  word1 : Word
  word2 : Word
  deriving DecidableEq, Repr, Inhabited

/-- What a WCS routine leaves: general registers, condition code, and bytes of memory it wrote (43_wcs.md
R283: `(R, CC, memory) <- WCS_ROUTINE(entry)(state)`). -/
structure WcsEffect where
  regs   : Vector Word 8
  cc     : BitVec 4
  writes : List (Addr × Byte)
  deriving DecidableEq, Repr, Inhabited

/-- What IPL leaves in memory and in the program counter (70_reset_and_hazards.md R710); `failed` is a device or
memory error. -/
structure IplImage where
  writes : List (Addr × Word)
  entry  : BitVec 18
  failed : Bool
  deriving DecidableEq, Repr, Inhabited

/-- The four floating-point operations (50_floating_point.md R484). -/
inductive FpOp where
  | add
  | sub
  | mul
  | div
  deriving DecidableEq, Repr

/-- What becomes of the fraction digits that alignment shifts out beyond the last digit kept: they still count, they
are dropped, or they count as one unit of the last digit kept (50_floating_point.md R484 (3); log 9). -/
inductive ShiftedOut where
  | kept
  | dropped
  | carried
  deriving DecidableEq, Repr, Inhabited

/-- `exc` of R484. -/
inductive FpExc where
  | none
  | underflow
  | overflow
  deriving DecidableEq, Repr, Inhabited

/-- `sign` of R484. -/
inductive FpSign where
  | positive
  | negative
  | zero
  deriving DecidableEq, Repr, Inhabited

/-- The answer of FP_ARITH (R484). -/
structure FpResult (n : Nat) where
  result : BitVec n
  exc    : FpExc
  sign   : FpSign
  deriving DecidableEq, Repr, Inhabited

/-- Free value: condition code bits CC1 to CC3 an instruction leaves undefined (93_implementation_defined.md U1; log 8). -/
opaque Config.freeCc : Nat → BitVec 3

/-- Free value: the HIST bit after a trap halt (U2; log 8). -/
opaque Config.freeHist : Nat → Bool

/-- Free value: a channel's answer to a Class F instruction, of (fresh index, channel, subaddress, operation)
(`CHANNEL_RESPONSE`, R572; log 10). -/
opaque Config.classFAnswer : Nat → BitVec 7 → BitVec 7 → ClassFOp → ClassFAnswer

/-- Free value: the four condition code bits a Test Device returns, of (fresh index, device, test code)
(R576; log 10). -/
opaque Config.testResult : Nat → BitVec 7 → Half → BitVec 4

/-- Free value: the status a channel reports, of (fresh index, channel) (R594; log 10). -/
opaque Config.channelStatus : Nat → BitVec 7 → ChannelStatus

/-- Free value: what IPL from a device loads (`IPL_LOAD`, R710; U35; log 33). -/
opaque Config.iplLoad : BitVec 15 → IplImage

/-- Free value: the answer of FP_ARITH where the manual fixes no result: an operand that is not normalized, or a zero
divisor (U15, U16; log 9). `fpOpen` keeps of it what R483 allows. -/
opaque Config.fpFree : (n : Nat) → FpOp → BitVec n → BitVec n → FpResult n

/-- Free value: what becomes of digits that alignment shifts past the last one kept (R484 (3), U16; log 9). -/
opaque Config.fpShiftedOut : (n : Nat) → FpOp → BitVec n → BitVec n → ShiftedOut

/-- Free value: whether a doubleword result that is not exact is rounded up in magnitude: "nothing is said of rounding
for doubleword operations" (R484 (3), U16; log 9). -/
opaque Config.fpRoundUp : (n : Nat) → FpOp → BitVec n → BitVec n → Bool

/-- Free value: the register content delivered with an exponent overflow or underflow (R484 (6); log 9). -/
opaque Config.fpOnException : (n : Nat) → FpOp → BitVec n → BitVec n → BitVec n

end Sys2Proof
end

