-- ==== Sys2Proof/Machine/State.lean ====
section
/-! DEFINITION. The state of one processor (10_state.md R20), as plain data, and the state after reset (R70). -/

namespace Sys2Proof.Machine

/-- The control mode (10_state.md R31). -/
inductive Mode where
  | psw
  | psd
  deriving DecidableEq, Repr

/-- `RUNSTATE` (10_state.md R59). -/
inductive RunState where
  | run
  | halt
  | wait
  | quiescent
  deriving DecidableEq, Repr

/-- The three address stop functions (70_reset_and_hazards.md R734). -/
inductive StopKind where
  | instruction
  | operandRead
  | operandWrite
  deriving DecidableEq, Repr

/-- What the outside world can do to the processor (60_exceptions.md R620, R690 to R692; 70_reset_and_hazards.md
R700, R710, R730 to R736; 20_memory.md R111; 53_input_output.md R572). One event is one step. The EXT FUNCT key of
R735 has no event, since the spec names no function code and no effect of one, so OPERATOR FAULT 5 and 6 do not
arise, and no event is a failure of the panel's line or of the bus, so of the ERROR numbers only 4 and 5 do: DESIGN
CHOICE (log 7). -/
inductive HostEvent where
  /-- the RUN/HALT key (R731) -/
  | runHaltKey
  /-- the INSTR STEP key (R734) -/
  | instrStepKey
  /-- the SYSTEM RESET key (R700) -/
  | systemResetKey
  /-- the INITIAL PROGRAM LOAD key; the device stands in the B-Display (R710) -/
  | iplKey
  /-- the hexadecimal keyboard: load the B-Display (R730) -/
  | loadBDisplay (v : Word)
  /-- read a general register into its display (R732) -/
  | readReg (r : Reg)
  /-- write a general register (R732) -/
  | writeReg (r : Reg) (v : Word)
  /-- read PSD word 1 or the PSW into the A-Display (R732) -/
  | readPsd1
  /-- write PSD word 1 or the PSW (R732) -/
  | writePsd1 (v : Word)
  /-- read PSD word 2 into the B-Display (R732) -/
  | readPsd2
  /-- write PSD word 2 (R732) -/
  | writePsd2 (v : Word)
  /-- read the program counter into the A-Display (R732) -/
  | readPc
  /-- write the program counter (R732) -/
  | writePc (v : Word)
  /-- write the memory address into the A-Display (R732) -/
  | writeMemAddress (v : Word)
  /-- read the memory word the A-Display addresses into the B-Display (R732) -/
  | readMem
  /-- INC 'A' & READ (R732) -/
  | incReadMem
  /-- write the memory word the A-Display addresses (R732) -/
  | writeMem (v : Word)
  /-- WRITE & INC 'A' (R732) -/
  | writeIncMem (v : Word)
  /-- read the control switches into the B-Display (R733) -/
  | readCsw
  /-- write the control switches (R733) -/
  | writeCsw (v : Word)
  /-- an address stop key, with the B-Display's address (R734) -/
  | stopKey (k : StopKind) (a : Addr)
  /-- Read Effective Address (R736) -/
  | readEffectiveAddress
  /-- Convert Address (R736) -/
  | convertAddress (a : Addr)
  /-- the ATTENTION key (60_exceptions.md R642) -/
  | attentionKey
  /-- the CLK OVRD key (R735) -/
  | clockOverrideKey
  /-- the PANEL LOCK switch (R730) -/
  | panelLock (locked : Bool)
  /-- a tick of the real-time clock (60_exceptions.md R691) -/
  | clockTick
  /-- the interval timer reached zero; its configured level (60_exceptions.md R690) -/
  | timerExpired (l : Level)
  /-- the interval timer's counter changed (60_exceptions.md R690) -/
  | timerCounts (v : Word)
  /-- an external line or a channel requests a level (60_exceptions.md R692, 53_input_output.md R572 (c)) -/
  | request (l : Level)
  /-- power failure or restoration, with a memory error on power up (60_exceptions.md R623, R695) -/
  | powerFail (memoryError : Bool)
  /-- an uncorrectable error in one byte of memory (20_memory.md R111) -/
  | parityError (a : Addr)
  /-- a bus agent writes one byte of memory (53_input_output.md R572 (b)) -/
  | busWrite (a : Addr) (b : Byte)
  /-- what bus agents write, byte by byte, just before the first memory transaction of the processor for which nothing is
  given yet (R572 (b)) -/
  | busBetween (l : List (Addr × Byte))
  /-- the CPU's SIPU signal reaches an IPU (60_exceptions.md R684) -/
  | ipuStart
  /-- the IPU's done signal reaches a CPU (60_exceptions.md R684) -/
  | ipuDone
  deriving DecidableEq, Repr

/-- What the processor has handed to a channel (53_input_output.md R572, R575, R576, R579). -/
inductive ChannelCommand where
  | commandDevice (device : BitVec 7) (code : Half)
  | testDevice (device : BitVec 7) (code : Half)
  | classF (op : ClassFOp) (channel sub : BitVec 7) (iocla : Option Addr)
  deriving DecidableEq, Repr

/-- What the A-Display holds (70_reset_and_hazards.md R730, R732): a memory address, PSD word 1 or the PSW, a
program counter value, or an even register. -/
inductive ADisplay where
  | address
  | psw
  | pc
  | register
  deriving DecidableEq, Repr

/-- The control panel's own state (10_state.md R62, 70_reset_and_hazards.md R730 to R735). -/
structure Panel where
  aDisplay      : Word
  aHolds        : ADisplay
  bDisplay      : Word
  compare       : Addr
  stopInstr     : Bool
  stopRead      : Bool
  stopWrite     : Bool
  stopLight     : Bool
  parityLight   : Bool
  trapHaltLight : Bool
  clockOverride : Bool
  locked        : Bool
  operatorFault : BitVec 4
  errorNumber   : BitVec 4
  deriving DecidableEq, Repr

/-- The state of one processor and of what it sees of its system. -/
structure State where
  /-- the installation's parameters (00_scope.md R7); no instruction changes them -/
  cfg             : Config
  /-- the general registers (R22) -/
  regs            : Vector Word 8
  /-- `MODE` (R31) -/
  mode            : Mode
  /-- PSD bit 0 (R35) -/
  priv            : Bool
  /-- PSD bits 1-4, CC1 the most significant (R40) -/
  cc              : BitVec 4
  /-- PSD bit 5, extended addressing (R36) -/
  ext             : Bool
  /-- PSD bit 6, the last instruction was a right halfword (R37) -/
  hist            : Bool
  /-- PSD bit 7, arithmetic exception trap mask (R38) -/
  aexp            : Bool
  /-- PSD bits 13-30: the halfword address of the next instruction (R30) -/
  pc              : BitVec 18
  /-- PSD bits 32-63 as last loaded, with bits 47 to 49 zero (R32) -/
  psd2            : Word
  /-- `BLOCKED` (R42) -/
  blocked         : Bool
  /-- `BLOCK_COUNT` (R58) -/
  blockCount      : Nat
  /-- `MAPPED` (R43) -/
  mapped          : Bool
  /-- `MAP[0..31]` (R44) -/
  map             : Vector Half 32
  /-- `PROT[0..15]` (R46) -/
  prot            : Vector Half 16
  /-- the scratchpad; cell X'91' is the status word (R47, R50) -/
  spad            : Vector Word 256
  /-- `TRAPS_ENABLED` (R52) -/
  trapsEnabled    : Bool
  /-- `BMTO_ENABLED` (R52) -/
  bmtoEnabled     : Bool
  /-- the control switches (R53) -/
  csw             : Half
  /-- Writable Control Storage, the words that are not zero, by rising address (R54) -/
  wcs             : List (Nat × Double)
  /-- the `enabled` latches, bit `l` for level `l` (R55) -/
  enabled         : BitVec 128
  /-- the `requesting` latches (R55) -/
  requesting      : BitVec 128
  /-- the `active` latches (R55) -/
  active          : BitVec 128
  /-- `RUNSTATE` (R59) -/
  runState        : RunState
  /-- `EXEC_DEPTH` (R60) -/
  execDepth       : Bool
  /-- `NONINT` (R61) -/
  nonint          : Bool
  /-- the memory word lock (R63) -/
  memLock         : Bool
  /-- the RTOM interval timer's counter (R65) -/
  intervalTimer   : Word
  /-- `WCS_INTERLOCK` (53_input_output.md R587) -/
  wcsInterlock    : Option (BitVec 7)
  /-- `IPU_START_PENDING` (60_exceptions.md R680) -/
  ipuStartPending : Bool
  /-- `IPU_DONE_PENDING` (60_exceptions.md R680) -/
  ipuDonePending  : Bool
  /-- real memory: the bytes that are not zero, by rising address (20_memory.md R80; log 5) -/
  mem             : List Host.Cell
  /-- the control panel (70_reset_and_hazards.md R730) -/
  panel           : Panel
  /-- the model's own: the address of the instruction in execution (log 17) -/
  instrPc         : BitVec 18
  /-- the model's own: the last instruction was abandoned by a trap (log 16) -/
  abandoned       : Bool
  /-- the model's own: an arithmetic exception waits for the boundary (60_exceptions.md R640; log 15) -/
  pendingArith    : Bool
  /-- the model's own: a block mode timeout waits for the boundary (60_exceptions.md R662) -/
  pendingTimeout  : Bool
  /-- the model's own: a power fail trap waits for the boundary (60_exceptions.md R623) -/
  pendingPower    : Bool
  /-- the model's own: the instruction after a BIx is not the target of the panel's HALT (R722) -/
  noHalt          : Bool
  /-- the model's own: the panel asked for HALT (R731) -/
  haltRequest     : Bool
  /-- the model's own: one instruction, then HALT (R734) -/
  stepping        : Bool
  /-- the model's own: an address stop matched in this instruction (R734) -/
  stopHit         : Bool
  /-- the model's own: the bytes with an uncorrectable error (20_memory.md R111; log 13) -/
  parityBad       : List Nat
  /-- the model's own: host events not yet taken, oldest first (log 6) -/
  inputs          : List HostEvent
  /-- the model's own: what bus agents write just before each of the processor's next memory transactions, the nearest first
  (53_input_output.md R572 (b); log 1) -/
  bus             : List (List (Addr × Byte))
  /-- the model's own: what was handed to channels, oldest first (log 10) -/
  channelOut      : List ChannelCommand
  /-- the model's own: the index of the next free value (log 8) -/
  freeIx          : Nat
  deriving DecidableEq, Repr

/-- The reasons for which the model stops. -/
inductive Fault where
  /-- An indirect chain that never ends: the instruction never completes (20_memory.md R90,
  93_implementation_defined.md U12 "stuck"). Raised by the effective address. Safe: the hardware makes no
  progress either. -/
  | endlessIndirection
  /-- A memory error in the context block of the IPU error trap, or a map overflow in its PSD load, which would enter the
  same trap without end; the manual gives an IPU neither a trap halt nor a further trap (60_exceptions.md R681, R682; log
  20). Raised by the IPU error trap's entry. Safe: the model stops. -/
  | ipuContextBlock
  deriving DecidableEq, Repr

/-- The reasons for which the model gives an instruction no meaning. -/
inductive Refusal where
  /-- The instruction has no meaning yet. Raised by `exec` alone. Safe: nothing can be concluded of it. -/
  | notModelled (mnemonic : String)
  deriving DecidableEq, Repr

/-- INTERRUPT ACTIVE: a level is active, or a trap halt turned it on (70_reset_and_hazards.md R735). -/
def State.interruptActive (s : State) : Bool := decide (s.active ≠ 0) || s.panel.trapHaltLight

/-- What a step or an instruction answers. -/
abbrev Outcome := Host.Outcome State Fault Refusal

/-- A panel with everything off (DESIGN CHOICE; log 7). -/
def Panel.clear : Panel where
  aDisplay := 0
  aHolds := .address
  bDisplay := 0
  compare := 0
  stopInstr := false
  stopRead := false
  stopWrite := false
  stopLight := false
  parityLight := false
  trapHaltLight := false
  clockOverride := false
  locked := false
  operatorFault := 0
  errorNumber := 0

/-- `MODE` after reset: PSD if the jumper allows it, and always on an IPU (70_reset_and_hazards.md R702). -/
def Config.resetMode (c : Config) : Mode :=
  match c.role with
  | .ipu => .psd
  | .cpu => if c.psdJumper then .psd else .psw

/-- `RUNSTATE` after reset (10_state.md R70). -/
def Config.resetRunState (c : Config) : RunState :=
  match c.role with
  | .ipu => .quiescent
  | .cpu => .halt

/-- The status word after reset: error bits zero, bit 25 set because traps are not enabled, bit 31 the mode
(10_state.md R50, R70); on an IPU bit 25 reads zero (60_exceptions.md R681). -/
def Config.resetStatus (c : Config) : Word :=
  match c.role with
  | .ipu => 0x00000001
  | .cpu => if c.psdJumper then 0x00000041 else 0x00000040

/-- The state after SYSTEM RESET of a processor with configuration `c` (10_state.md R70). What the spec says reset
leaves unchanged (memory, WCS, switches) is empty or zero here (DESIGN CHOICE; log 4, log 5), and so is the rest of
the scratchpad (log 4). The interval timer's counter, for which the spec gives no value, is zero (DESIGN CHOICE; log
27). -/
def State.resetFor (c : Config) : State where
  cfg := c
  regs := Vector.replicate 8 0
  mode := Config.resetMode c
  priv := true
  cc := 0
  ext := false
  hist := false
  aexp := false
  pc := 0
  psd2 := 0
  blocked := false
  blockCount := 0
  mapped := false
  map := Vector.replicate 32 0
  prot := Vector.replicate 16 0
  spad := (Vector.replicate 256 0).set 0x91 (Config.resetStatus c)
  trapsEnabled := false
  bmtoEnabled := false
  csw := 0
  wcs := []
  enabled := 0
  requesting := 0
  active := 0
  runState := Config.resetRunState c
  execDepth := false
  nonint := false
  memLock := false
  intervalTimer := 0
  wcsInterlock := none
  ipuStartPending := false
  ipuDonePending := false
  mem := []
  panel := Panel.clear
  instrPc := 0
  abandoned := false
  pendingArith := false
  pendingTimeout := false
  pendingPower := false
  noHalt := false
  haltRequest := false
  stepping := false
  stopHit := false
  parityBad := []
  inputs := []
  bus := []
  channelOut := []
  freeIx := 0

/-- Free value: what the WCS routine entered at the six-bit address does in a state (`WCS_ROUTINE(entry)(state)`,
R7, 43_wcs.md R283; U11; log 11). -/
opaque Config.wcsRoutine : BitVec 6 → State → WcsEffect

/-- The machine right after reset: a CPU with the default configuration (log 2). -/
def State.reset : State := State.resetFor Config.default

end Sys2Proof.Machine
end

