-- ==== Sys2Proof/Machine/Ops.lean ====
section
/-! DEFINITION. The named operations over registers and memory, the loading of a PSD, and the taking of traps and
interrupts (20_memory.md, 60_exceptions.md). Instruction meanings are written over these alone. -/

namespace Sys2Proof.Machine

/-! ## Registers -/

/-- `R[i]` (10_state.md R22): all eight registers are alike, none is hard-wired. -/
def State.reg (s : State) (r : Reg) : Word := s.regs[r.toNat]'r.isLt

/-- `R[i] <- v`. -/
def State.setReg (s : State) (r : Reg) (v : Word) : State := { s with regs := s.regs.set r.toNat v r.isLt }

/-- The even register of a pair: the low bit of the register number is ignored (10_state.md R23, D1). -/
def evenReg (r : Reg) : Reg := r &&& 6

/-- The odd register of a pair. -/
def oddReg (r : Reg) : Reg := r ||| 1

/-- `RD[i]`: the even register is the most significant word (R23). -/
def State.regPair (s : State) (r : Reg) : Double := s.reg (evenReg r) ++ s.reg (oddReg r)

/-- `RD[i] <- v`. -/
def State.setRegPair (s : State) (r : Reg) (v : Double) : State :=
  (s.setReg (evenReg r) (v.extractLsb' 32 32)).setReg (oddReg r) (v.extractLsb' 0 32)

/-- `CC <- v`. -/
def State.setCc (s : State) (v : BitVec 4) : State := { s with cc := v }

/-- `pc <- target`: bits 13-30 of a word or address (10_state.md R30). -/
def State.jump (s : State) (a : Addr) : State := { s with pc := a.extractLsb' 1 18 }

/-- The logical byte address in the program counter. -/
def State.pcAddr (s : State) : Addr := BitVec.zeroExtend 24 (s.pc ++ 0#1)

/-! ## Memory as data -/

/-- The byte at a real address; an unlisted address reads zero (log 5). -/
def Memory.read : List Host.Cell → Nat → Byte
  | [], _ => 0
  | (k, v) :: t, a => if a = k then v else if a < k then 0 else Memory.read t a

/-- The memory with one byte written, in the canonical form. -/
def Memory.write : List Host.Cell → Nat → Byte → List Host.Cell
  | [], a, b => if b = 0 then [] else [(a, b)]
  | (k, v) :: t, a, b =>
    if a = k then (if b = 0 then t else (a, b) :: t)
    else if a < k then (if b = 0 then (k, v) :: t else (a, b) :: (k, v) :: t)
    else (k, v) :: Memory.write t a b

/-- Addresses strictly rising from `lo`, below 2^24, and no zero byte listed. -/
def Memory.wfFrom : Nat → List Host.Cell → Bool
  | _, [] => true
  | lo, (k, v) :: t => decide (lo ≤ k) && decide (k < 2 ^ 24) && decide (v ≠ 0) && Memory.wfFrom (k + 1) t

/-- The canonical form of memory. -/
def Memory.wf (m : List Host.Cell) : Bool := Memory.wfFrom 0 m

/-- Two bytes, the most significant at the lower address (20_memory.md R81). -/
def Memory.read16 (m : List Host.Cell) (a : Addr) : Half :=
  Memory.read m a.toNat ++ Memory.read m (a + 1).toNat

/-- Four bytes (R81). -/
def Memory.read32 (m : List Host.Cell) (a : Addr) : Word := Memory.read16 m a ++ Memory.read16 m (a + 2)

/-- One byte of real memory written; a byte with an uncorrectable error is good again (log 13). -/
def State.poke8 (s : State) (a : Addr) (b : Byte) : State :=
  { s with mem := Memory.write s.mem a.toNat b, parityBad := s.parityBad.filter (fun x => decide (x ≠ a.toNat)) }

/-- Two bytes of real memory written. -/
def State.poke16 (s : State) (a : Addr) (v : Half) : State :=
  (s.poke8 a (v.extractLsb' 8 8)).poke8 (a + 1) (v.extractLsb' 0 8)

/-- Four bytes of real memory written. -/
def State.poke32 (s : State) (a : Addr) (v : Word) : State :=
  (s.poke16 a (v.extractLsb' 16 16)).poke16 (a + 2) (v.extractLsb' 0 16)

/-! ## Traps by name -/

/-- The two memory errors (20_memory.md R110, R111). -/
inductive MemError where
  | nonpresent
  | parity
  deriving DecidableEq, Repr

/-- Why a Machine Check is taken (60_exceptions.md R632, R645). -/
inductive CheckCause where
  | memory (e : MemError)
  | mapOverflow
  deriving DecidableEq, Repr

/-- The traps of 60_exceptions.md R621 that an instruction or a boundary raises. -/
inductive Trap where
  | powerFail
  | memoryParity (fetch : Bool)
  | nonpresent (fetch : Bool)
  | undefined
  | privilege
  | machineCheck (c : CheckCause)
  | systemCheck (mapRestriction : Bool)
  | mapFault (overflow : Bool)
  | blockTimeout
  | arithmetic
  | endOfIpu
  deriving DecidableEq, Repr

/-- Status word bit `b` in the manual's numbering. -/
def statusBit (b : Nat) : Word := 1#32 <<< (31 - b)

/-- The vector location of a trap in PSD mode (60_exceptions.md R621). -/
def Trap.vector : Trap → Addr
  | .powerFail => 0x0F4
  | .memoryParity _ => 0x0E8
  | .nonpresent _ => 0x190
  | .undefined => 0x194
  | .privilege => 0x198
  | .machineCheck _ => 0x184
  | .systemCheck _ => 0x188
  | .mapFault _ => 0x18C
  | .blockTimeout => 0x0E4
  | .arithmetic => 0x1A4
  | .endOfIpu => 0x2E0

/-- `arming(t)` (60_exceptions.md R670): the traps that halt the machine while traps are not enabled. -/
def Trap.arming : Trap → Bool
  | .powerFail => false
  | .memoryParity _ => true
  | .nonpresent _ => true
  | .undefined => true
  | .privilege => true
  | .machineCheck _ => true
  | .systemCheck _ => true
  | .mapFault _ => true
  | .blockTimeout => false
  | .arithmetic => false
  | .endOfIpu => false

/-- The status bits of a memory error met on an operand (60_exceptions.md R632). -/
def MemError.statusBits : MemError → Word
  | .nonpresent => statusBit 10
  | .parity => statusBit 8

/-- The status word bits a trap sets on a CPU (10_state.md R50). -/
def Trap.statusBits (m : Mode) : Trap → Word
  | .memoryParity f => if f then statusBit 9 else statusBit 8
  | .nonpresent f => if f then statusBit 11 else statusBit 10
  | .undefined => match m with
    | .psd => statusBit 12
    | .psw => statusBit 19
  | .machineCheck (.memory e) => e.statusBits
  | .machineCheck .mapOverflow => statusBit 16
  | .systemCheck f => if f then statusBit 20 else 0
  | .mapFault f => if f then statusBit 16 else statusBit 20
  | .powerFail => 0
  | .privilege => 0
  | .blockTimeout => 0
  | .arithmetic => 0
  | .endOfIpu => 0

/-- The status word bits a trap sets on an IPU (10_state.md R51, 60_exceptions.md R682). Bit 11, which R682 names
for a fetch from absent memory, is one of the two that "read 0" by the spec's decision D8: it is not set (log 36).
-/
def Trap.ipuStatusBits : Trap → Word
  | .nonpresent true => 0
  | .privilege => statusBit 21
  | .arithmetic => statusBit 23
  | t => t.statusBits .psd

/-! ## Results of an access -/

/-- What an operation inside an instruction answers: a value and the state, a trap to raise, or no progress. -/
inductive Res (α : Type) where
  | ok (a : α) (s : State)
  | trap (t : Trap) (s : State)
  | stuck (f : Fault)

/-- One operation after another. -/
def Res.bind {α β : Type} (x : Res α) (k : α → State → Res β) : Res β :=
  match x with
  | .ok a s => k a s
  | .trap t s => .trap t s
  | .stuck f => .stuck f

/-! ## Translation, protection, presence -/

/-- What an access is for. -/
inductive Access where
  | fetch
  | read
  | write
  deriving DecidableEq, Repr

/-- `MEM_PRESENT` (00_scope.md R7). -/
def Config.presentAt (c : Config) (a : Nat) : Bool :=
  c.memPresent.any fun r => decide (r.base ≤ a) && decide (a < r.base + r.size)

/-- Whether `n` consecutive real bytes are present. R110 tests `MEM_PRESENT` of the access's real address alone;
that every byte must be present is the model's choice (20_memory.md R110; log 37). -/
def State.present (s : State) (a : Addr) : Nat → Bool
  | 0 => true
  | n + 1 => Config.presentAt s.cfg a.toNat && s.present (a + 1) n

/-- Whether one of `n` consecutive real bytes has an uncorrectable error (20_memory.md R111; log 13). -/
def State.parityAt (s : State) (a : Addr) : Nat → Bool
  | 0 => false
  | n + 1 => s.parityBad.contains a.toNat || s.parityAt (a + 1) n

/-- The map register of a logical address below X'100000'. -/
def State.mapEntry (s : State) (la : Addr) : Half := s.map[(la.extractLsb' 15 5).toNat]'(la.extractLsb' 15 5).isLt

/-- Logical to real address; none is a Map Fault (20_memory.md R100, R112). -/
def State.translate (s : State) (la : Addr) : Option Addr :=
  if s.mapped = false then some la
  else if la.extractLsb' 20 4 ≠ 0 then none
  else if (s.mapEntry la).getLsbD 15 = false then none
  else some ((s.mapEntry la).extractLsb' 0 9 ++ la.extractLsb' 0 15)

/-- Whether a write at a logical address is refused (20_memory.md R105). Bit `15 - page` of the manual's numbering
is bit `page` from the right. -/
def State.writeProtected (s : State) (la : Addr) : Bool :=
  if s.priv then false
  else if s.mapped then (s.mapEntry la).getLsbD 14
  else if la.extractLsb' 19 5 ≠ 0 then false
  else (s.prot[(la.extractLsb' 15 4).toNat]'(la.extractLsb' 15 4).isLt).getLsbD (la.extractLsb' 11 4).toNat

/-- The real address of an access, or the trap it raises: translation, then write protection, then presence, then
parity (20_memory.md R114). -/
def State.locate (s : State) (k : Access) (la : Addr) (n : Nat) : Except Trap Addr :=
  match s.translate la with
  | none => .error (.mapFault false)
  | some pa =>
    if k = .write ∧ s.writeProtected la = true then .error .privilege
    else if s.present pa n = false then .error (.nonpresent (decide (k = .fetch)))
    else if k ≠ .write ∧ s.parityAt pa n = true then .error (.memoryParity (decide (k = .fetch)))
    else .ok pa

/-- Whether a real address lies in the word of the Address Compare register (70_reset_and_hazards.md R734). -/
def State.comparesTo (s : State) (pa : Addr) : Bool :=
  decide (pa.extractLsb' 2 22 = s.panel.compare.extractLsb' 2 22)

/-- The Operand Read Stop's comparison (R734). -/
def State.noteRead (s : State) (pa : Addr) : State :=
  { s with stopHit := s.stopHit || (s.panel.stopRead && s.comparesTo pa) }

/-- The Operand Write Stop's comparison (R734). -/
def State.noteWrite (s : State) (pa : Addr) : State :=
  { s with stopHit := s.stopHit || (s.panel.stopWrite && s.comparesTo pa) }

/-- The Instruction Stop's comparison (R734). -/
def State.noteFetch (s : State) (pa : Addr) : State :=
  { s with stopHit := s.stopHit || (s.panel.stopInstr && s.comparesTo pa) }

/-! ## The memory bus -/

/-- A bus agent's write of one byte; to absent memory it has no effect (53_input_output.md R572 (b)). -/
def State.busWrite (s : State) (a : Addr) (b : Byte) : State := if Config.presentAt s.cfg a.toNat then s.poke8 a b else s

/-- Bus agents' writes, one after another. -/
def State.busWrites (s : State) (l : List (Addr × Byte)) : State := l.foldl (fun t p => t.busWrite p.1 p.2) s

/-- The memory bus before a transaction of the processor: what its agents write there, which "may fall between any
two memory transactions of a processor" (53_input_output.md R572 (b)). While the processor holds the memory word
lock nothing of theirs falls between its accesses (20_memory.md R120). Which of its accesses is one transaction is
log 1. -/
def State.transact (s : State) : State :=
  if s.memLock then s
  else match s.bus with
    | [] => s
    | l :: rest => State.busWrites { s with bus := rest } l

/-! ## Operand accesses (`MemRead`, `MemWrite` of 00_scope.md R9), each one memory transaction (20_memory.md R120) -/

/-- The byte at a logical address. -/
def State.load8 (s : State) (la : Addr) : Res Byte :=
  let s1 := s.transact
  match s1.locate .read la 1 with
  | .error t => .trap t s1
  | .ok pa => .ok (Memory.read s1.mem pa.toNat) (s1.noteRead pa)

/-- The halfword at a logical address. -/
def State.load16 (s : State) (la : Addr) : Res Half :=
  let s1 := s.transact
  match s1.locate .read la 2 with
  | .error t => .trap t s1
  | .ok pa => .ok (Memory.read16 s1.mem pa) (s1.noteRead pa)

/-- The word at a logical address. -/
def State.load32 (s : State) (la : Addr) : Res Word :=
  let s1 := s.transact
  match s1.locate .read la 4 with
  | .error t => .trap t s1
  | .ok pa => .ok (Memory.read32 s1.mem pa) (s1.noteRead pa)

/-- A doubleword is two word accesses, "the least significant memory word is accessed first" (20_memory.md R82,
D24). -/
def State.load64 (s : State) (la : Addr) : Res Double :=
  (s.load32 (la + 4)).bind fun lo s1 => (s1.load32 la).bind fun hi s2 => .ok (hi ++ lo) s2

/-- A byte stored at a logical address. -/
def State.store8 (s : State) (la : Addr) (v : Byte) : Res Unit :=
  let s1 := s.transact
  match s1.locate .write la 1 with
  | .error t => .trap t s1
  | .ok pa => .ok () ((s1.poke8 pa v).noteWrite pa)

/-- A halfword stored at a logical address. -/
def State.store16 (s : State) (la : Addr) (v : Half) : Res Unit :=
  let s1 := s.transact
  match s1.locate .write la 2 with
  | .error t => .trap t s1
  | .ok pa => .ok () ((s1.poke16 pa v).noteWrite pa)

/-- A word stored at a logical address. -/
def State.store32 (s : State) (la : Addr) (v : Word) : Res Unit :=
  let s1 := s.transact
  match s1.locate .write la 4 with
  | .error t => .trap t s1
  | .ok pa => .ok () ((s1.poke32 pa v).noteWrite pa)

/-- The low-order word first (D24). -/
def State.store64 (s : State) (la : Addr) (v : Double) : Res Unit :=
  (s.store32 (la + 4) (v.extractLsb' 0 32)).bind fun _ s1 => s1.store32 la (v.extractLsb' 32 32)

/-- The logical address of the word after `la`: modulo 2^19 unless extended (log 23). -/
def State.nextWord (s : State) (la : Addr) : Addr :=
  if s.ext then la + 4 else BitVec.zeroExtend 24 ((la + 4).extractLsb' 0 19)

/-! ## Effective address (20_memory.md R90, R93) -/

/-- What addressing answers: the effective F bit, the effective address, the last word of the chain and its sum with
the index register. -/
structure Effective where
  ef   : Bool
  ea   : Addr
  word : Word
  sum  : Word
  deriving DecidableEq, Repr

/-- The index register's contents, or zero when X is zero (R90). -/
def State.indexValue (s : State) (w : Word) : Word :=
  if w.extractLsb' 21 2 = 0 then 0 else s.reg (BitVec.zeroExtend 3 (w.extractLsb' 21 2))

/-- One level of addressing: the whole-word sum (not extended) or the 24-bit sum (extended). -/
def State.addressLevel (s : State) (w : Word) : Effective :=
  let sum := w + s.indexValue w
  if s.ext then
    ⟨w.getLsbD 19, BitVec.zeroExtend 24 (w.extractLsb' 0 19) + (s.indexValue w).extractLsb' 0 24, w, sum⟩
  else
    ⟨sum.getLsbD 19, BitVec.zeroExtend 24 (sum.extractLsb' 0 19), w, sum⟩

/-- The address of an indirect word: a word of the primary space (R90, D20). -/
def indirectAddr (ea : Addr) : Addr := BitVec.zeroExtend 24 (ea.extractLsb' 2 17 ++ 0#2)

/-- The addressing loop of R90, `n` words at most. -/
def State.addressLoop : Nat → Word → State → Res Effective
  | 0, _, _ => .stuck .endlessIndirection
  | n + 1, w, s =>
    if w.getLsbD 20 then
      (s.load32 (indirectAddr (s.addressLevel w).ea)).bind fun w' s' => State.addressLoop n w' s'
    else .ok (s.addressLevel w) s

/-- An indirect word lies at one of 2^17 addresses, and a chain that meets one twice never ends: with this bound the
loop stops short of no chain that ends (log 12). -/
def indirectLimit : Nat := 131073

/-- The effective address of the instruction word `w` (R90). -/
def State.effective (s : State) (w : Word) : Res Effective := State.addressLoop indirectLimit w s

/-! ## Real memory accesses -/

/-- `RealRead(a, 4)`. -/
def State.realRead (s : State) (a : Addr) : Except MemError Word :=
  if s.present a 4 = false then .error .nonpresent
  else if s.parityAt a 4 = true then .error .parity
  else .ok (Memory.read32 s.mem a)

/-- `RealRead(a, 2)`. -/
def State.realRead16 (s : State) (a : Addr) : Except MemError Half :=
  if s.present a 2 = false then .error .nonpresent
  else if s.parityAt a 2 = true then .error .parity
  else .ok (Memory.read16 s.mem a)

/-- `RealWrite(a, 4, v)`. -/
def State.realWrite (s : State) (a : Addr) (v : Word) : Except MemError State :=
  if s.present a 4 then .ok (s.poke32 a v) else .error .nonpresent

/-- A real write whose target may be absent: the word is then lost (log 21). -/
def State.realWriteOrLose (s : State) (a : Addr) (v : Word) : State :=
  if s.present a 4 then s.poke32 a v else s

/-- The processor's own such write, one memory transaction. -/
def State.storeOrLose (s : State) (a : Addr) (v : Word) : State := s.transact.realWriteOrLose a v

/-! ## The status word (10_state.md R50) -/

/-- `STATUS` as the scratchpad holds it. -/
def State.status (s : State) : Word := s.spad[0x91]

/-- The bits that mirror the state: 24 AEXP, 25 traps not enabled (zero on an IPU), 26 blocked, 31 PSD mode
(10_state.md R50, 60_exceptions.md R655, R681). That bits 24 and 26 follow flags kept from PSD mode in PSW mode too
is the model's choice (log 41). -/
def State.liveBits (s : State) : Word :=
  (if s.aexp then statusBit 24 else 0) ||| (if !s.trapsEnabled && decide (s.cfg.role = .cpu) then statusBit 25 else 0) |||
  (if s.blocked then statusBit 26 else 0) ||| (if s.mode = .psd then statusBit 31 else 0)

/-- The status word with live bits (60_exceptions.md R655). -/
def State.statusWord (s : State) : Word := (s.status &&& 0xFFFFFF1E) ||| s.liveBits

/-- `STATUS <- STATUS | bits`. -/
def State.orStatus (s : State) (bits : Word) : State := { s with spad := s.spad.set 0x91 (s.status ||| bits) }

/-- `STATUS<0:23> <- 0`: "after reporting status" (10_state.md R50). -/
def State.clearStatus (s : State) : State := { s with spad := s.spad.set 0x91 (s.status &&& 0xFF) }

/-! ## PSD images and PSD load (10_state.md R32, R39) -/

/-- PSD word 1 as stored in memory: the display-only bits are zero (R32, D4). In PSW mode bit 7 is zero (R33). -/
def State.psd1Image (s : State) : Word :=
  BitVec.ofBool s.priv ++ s.cc ++ BitVec.ofBool s.ext ++ BitVec.ofBool s.hist ++
    BitVec.ofBool (s.aexp && decide (s.mode = .psd)) ++ 0#5 ++ s.pc ++ 0#1

/-- PSD word 2 as stored in memory: bits 48-49 are 00 or 01 from `BLOCKED`, bit 47 is zero (R32). -/
def State.psd2Image (s : State) : Word := s.psd2 ||| (if s.blocked then 0x00004000 else 0)

/-- A PSW load: bits 0-6 and 13-30 (R39). -/
def State.setPsw (s : State) (n : Word) : State :=
  { s with
    priv := n.getLsbD 31
    cc := n.extractLsb' 27 4
    ext := n.getLsbD 26
    hist := n.getLsbD 25
    pc := n.extractLsb' 1 18 }

/-- `BLOCKED <- b`; the count restarts at every change (10_state.md R58, 60_exceptions.md R662). -/
def State.setBlocked (s : State) (b : Bool) : State :=
  { s with blocked := b, blockCount := if b && s.blocked then s.blockCount else 0 }

/-- `BLOCKED` by bits 48-49 of a PSD being loaded (R39). -/
def State.newBlocked (s : State) (n2 : Word) : Bool :=
  if n2.extractLsb' 14 2 = 0b00#2 then false
  else if n2.extractLsb' 14 2 = 0b01#2 then true
  else s.blocked

/-- Whether bits 32-33 of a PSD name a mapped mode (R39). -/
def psdMapped (n2 : Word) : Bool := decide (n2.extractLsb' 30 2 ≠ 0)

/-- The fields of a PSD load, the map contents apart (R39). -/
def State.setPsd (s : State) (n1 n2 : Word) : State :=
  { (s.setPsw n1).setBlocked (s.newBlocked n2) with
    aexp := n1.getLsbD 24
    psd2 := n2 &&& 0xFFFE3FFF
    mapped := psdMapped n2 }

/-- Why a map load stopped. -/
inductive MapError where
  | memory (e : MemError)
  | overflow
  deriving DecidableEq, Repr

/-- The map as far as it is loaded. -/
structure MapLoad where
  map   : Vector Half 32
  next  : Nat
  error : Option MapError
  /-- a word or halfword of the lists matched the Operand Read Stop (70_reset_and_hazards.md R734) -/
  hit   : Bool
  /-- the machine as the reads leave it: bus agents may write between them (53_input_output.md R572 (b)) -/
  state : State
  deriving DecidableEq, Repr

/-- A real read of the walk compared with the Operand Read Stop (70_reset_and_hazards.md R734). -/
def State.readStops (s : State) (pa : Addr) : Bool := s.panel.stopRead && s.comparesTo pa

/-- `m` stopped by an error, met in the state `s`. -/
def MapLoad.stop (m : MapLoad) (e : MapError) (s : State) : MapLoad := { m with error := some e, state := s }

/-- `m` after a read of the lists at `a` in the state `s`. -/
def MapLoad.advance (m : MapLoad) (a : Addr) (s : State) : MapLoad := { m with hit := m.hit || s.readStops a, state := s }

/-- The pages of one segment (`load_segment` of 20_memory.md R102). -/
def loadPages : Nat → Addr → MapLoad → MapLoad
  | 0, _, m => m
  | n + 1, a, m =>
    if h : m.next < 32 then
      match m.state.transact.realRead16 a with
      | .error e => m.stop (.memory e) m.state.transact
      | .ok v => loadPages n (a + 2) { m.advance a m.state.transact with map := m.map.set m.next v, next := m.next + 1 }
    else m.stop .overflow m.state

/-- One segment from the real address of its descriptor. -/
def loadSegment (a : Addr) (m : MapLoad) : MapLoad :=
  match m.state.transact.realRead a with
  | .error e => m.stop (.memory e) m.state.transact
  | .ok msd => loadPages (msd.extractLsb' 24 8).toNat (msd.extractLsb' 0 24) (m.advance a m.state.transact)

/-- `n` consecutive segment descriptors. -/
def loadSegments : Nat → Addr → MapLoad → MapLoad
  | 0, _, m => m
  | n + 1, a, m =>
    match (loadSegment a m).error with
    | some _ => loadSegment a m
    | none => loadSegments n (a + 4) (loadSegment a m)

/-- The Master Process List's address (20_memory.md R102; SPAD_MPL is log 31). -/
def State.mplAddr (s : State) : Addr := (s.spad[s.cfg.spadMpl.toNat]'s.cfg.spadMpl.isLt).extractLsb' 0 24

/-- The base process's first segment, when the borrowed bit is set (R102). -/
def loadBorrowed (bpix : BitVec 12) (m : MapLoad) : MapLoad :=
  let a := m.state.mplAddr + BitVec.zeroExtend 24 (bpix ++ 0#2)
  match m.state.transact.realRead a with
  | .error e => m.stop (.memory e) m.state.transact
  | .ok bmscd => loadSegment (bmscd.extractLsb' 0 24) (m.advance a m.state.transact)

/-- The map load walk for PSD word 2 `n2` (R102). The map is cleared after the segment control descriptor is read.
-/
def State.mapWalk (s : State) (n2 : Word) : MapLoad :=
  let a := s.mplAddr + BitVec.zeroExtend 24 (n2.extractLsb' 2 12 ++ 0#2)
  match s.transact.realRead a with
  | .error e => ⟨s.map, 0, some (.memory e), false, s.transact⟩
  | .ok mscd =>
    let start : MapLoad := ⟨Vector.replicate 32 0, 0, none, s.readStops a, s.transact⟩
    let sdc := (mscd.extractLsb' 24 6).toNat
    if mscd.getLsbD 31 then
      match (loadBorrowed (n2.extractLsb' 18 12) start).error with
      | some _ => loadBorrowed (n2.extractLsb' 18 12) start
      | none => loadSegments (sdc - 1) (mscd.extractLsb' 0 24) (loadBorrowed (n2.extractLsb' 18 12) start)
    else loadSegments sdc (mscd.extractLsb' 0 24) start

/-- What a sequence of real accesses that ends in a PSD load answers. -/
inductive Switch where
  /-- the new PSD is loaded -/
  | done (s : State)
  /-- a memory error: the new PSD is not loaded (60_exceptions.md R632) -/
  | memory (e : MemError) (s : State)
  /-- the map load ran past register 31: the new PSD is loaded (60_exceptions.md R645) -/
  | overflow (s : State)

/-- A PSD load (R39); `full` tells every case but LPSD, which never reloads the map (20_memory.md R101). -/
def State.loadPsd (s : State) (full : Bool) (n1 n2 : Word) : Switch :=
  if full && psdMapped n2 && !n2.getLsbD 16 then
    let m := s.mapWalk n2
    match m.error with
    | none => .done { m.state.setPsd n1 n2 with map := m.map }
    | some .overflow => .overflow { m.state.setPsd n1 n2 with map := m.map }
    | some (.memory e) => .memory e { m.state with map := m.map }
  else .done (s.setPsd n1 n2)

/-- The Operand Read Stop's comparison with what the map load of a PSD load by an instruction reads
(70_reset_and_hazards.md R734). -/
def State.noteWalk (s : State) (full : Bool) (n2 : Word) : State :=
  { s with stopHit := s.stopHit || (full && psdMapped n2 && !n2.getLsbD 16 && (s.mapWalk n2).hit) }

/-! ## Context blocks (60_exceptions.md R651) -/

/-- A real read inside a context switch, one memory transaction. -/
def State.switchRead (s : State) (a : Addr) (k : State → Word → Switch) : Switch :=
  let s1 := s.transact
  match s1.realRead a with
  | .error e => .memory e s1
  | .ok w => k s1 w

/-- A real write inside a context switch, one memory transaction. -/
def State.switchWrite (s : State) (a : Addr) (w : Word) (k : State → Switch) : Switch :=
  let s1 := s.transact
  match s1.realWrite a w with
  | .error e => .memory e s1
  | .ok s' => k s'

/-- Words 1 and 2: the old PSD. -/
def State.storeOldPsd (s : State) (icb : Addr) (k : State → Switch) : Switch :=
  s.switchWrite icb s.psd1Image fun s1 => s1.switchWrite (icb + 4) s.psd2Image k

/-- Words 3 and 4: the new PSD, loaded in full. -/
def State.enterNewPsd (s : State) (icb : Addr) : Switch :=
  s.switchRead (icb + 8) fun s1 n1 => s1.switchRead (icb + 12) fun s2 n2 => s2.loadPsd true n1 n2

/-- The status word as word 5, and its error bits cleared (R655). -/
def State.storeStatus (s : State) (icb : Addr) (k : State → Switch) : Switch :=
  s.switchWrite (icb + 16) s.statusWord fun s1 => k s1.clearStatus

/-- The 24-bit address a vector word holds (R651). -/
def vectorAddr (w : Word) : Addr := w.extractLsb' 0 24

/-! ## Traps on a CPU in PSD mode -/

/-- Leaving Wait (60_exceptions.md R652, R653). -/
def State.wake (s : State) : State :=
  { s with runState := match s.runState with
    | .wait => .run
    | r => r }

/-- The trap halt (60_exceptions.md R670, R671): the store area, the vector address in the pc, the Halt state. PSD1
bit 6 "may or may not be on": a free value (log 8). -/
def State.trapHalt (s : State) (vector : Addr) : State :=
  let s1 := s.storeOrLose 0x530 s.psd1Image
  let s2 := if s.mode = .psd then s1.storeOrLose 0x534 s.psd2Image else s1
  let s3 := (s2.storeOrLose 0x538 s.statusWord).clearStatus
  let s4 := (s3.storeOrLose 0x53C 0).storeOrLose 0x540 0
  { s4 with
    pc := vector.extractLsb' 1 18
    runState := .halt
    hist := Config.freeHist s4.freeIx
    freeIx := s4.freeIx + 1
    execDepth := false
    panel := { s4.panel with trapHaltLight := true } }

/-- The context switch of a trap entry through the Trap ICB format (60_exceptions.md R653). -/
def State.trapSwitch (s : State) (vector : Addr) : Switch :=
  s.switchRead vector fun s0 v =>
    s0.storeOldPsd (vectorAddr v) fun s1 =>
      s1.storeStatus (vectorAddr v) fun s2 => s2.enterNewPsd (vectorAddr v)

/-- `PSD` of `old` put back, after an entry that is abandoned (60_exceptions.md R632). -/
def State.restorePsd (s old : State) : State :=
  { s with
    priv := old.priv
    cc := old.cc
    ext := old.ext
    hist := old.hist
    aexp := old.aexp
    pc := old.pc
    psd2 := old.psd2
    blocked := old.blocked
    blockCount := old.blockCount
    mapped := old.mapped }

/-- A parity error lights the panel's indicator (70_reset_and_hazards.md R735). -/
def State.noteMemError (s : State) (e : MemError) : State :=
  { s with panel := { s.panel with parityLight := s.panel.parityLight || decide (e = .parity) } }

/-- How many entries may follow one another before the processor halts: DESIGN CHOICE (log 19). An entry whose own
context block or map is bad raises Machine Check or Map Fault in turn, and a Machine Check and a Map Fault whose new
PSDs both overflow the map raise each other without end (60_exceptions.md R645 gives none): the model takes the trap
halt after four entries. -/
def entryLimit : Nat := 4

/-- TAKING A TRAP in PSD mode on a CPU (60_exceptions.md R653): the trap halt for an arming trap while traps are not
enabled; else the context switch, with a memory error inside it reported as Machine Check (R632), a map overflow as
Map Fault, and Map Fault inside its own entry as Machine Check (R645). The entry of a Block Mode Timeout restarts
`BLOCK_COUNT` (R662). The trap halt that ends a chain of entries at its bound is the model's choice (log 19). -/
def trapEntry : Nat → Trap → State → State
  | 0, t, s => s.trapHalt t.vector
  | n + 1, t, s =>
    let s1 := { s.orStatus (t.statusBits .psd) with blockCount := if t = Trap.blockTimeout then 0 else s.blockCount }
    if t.arming && !s1.trapsEnabled then s1.trapHalt t.vector
    else
      match s1.wake.trapSwitch t.vector with
      | .done s2 => { s2 with execDepth := false }
      | .memory e s2 =>
        match t with
        | .machineCheck _ => ((s2.noteMemError e).orStatus e.statusBits).trapHalt t.vector
        | _ => trapEntry n (.machineCheck (.memory e)) (s2.noteMemError e)
      | .overflow s2 =>
        match t with
        | .mapFault _ => trapEntry n (.machineCheck .mapOverflow) (s2.restorePsd s1)
        | _ => trapEntry n (.mapFault true) s2

/-- What follows a context switch other than a trap's own (R632, R645): interrupt entry and SVC. -/
def State.afterSwitch : Switch → State
  | .done s => { s with execDepth := false }
  | .memory e s => trapEntry entryLimit (.machineCheck (.memory e)) (s.noteMemError e)
  | .overflow s => trapEntry entryLimit (.mapFault true) s

/-! ## Interrupt levels -/

/-- The latch bit of a level. -/
def levelBit (l : Level) : BitVec 128 := 1#128 <<< l.toNat

/-- The levels that exist as interrupts (60_exceptions.md R621): X'00', X'01', X'12' to X'77', X'7E', X'7F'. -/
def isInterruptLevel (l : Level) : Bool :=
  decide (l.toNat < 0x02) || (decide (0x12 ≤ l.toNat) && decide (l.toNat < 0x78)) || decide (0x7E ≤ l.toNat)

/-- `IVL(l)` (60_exceptions.md R621). -/
def levelVector (l : Level) : Addr :=
  if l.toNat = 0x00 then 0x0F0
  else if l.toNat = 0x01 then 0x0F8
  else if l.toNat = 0x12 then 0x0E8
  else if l.toNat = 0x13 then 0x0EC
  else if l.toNat < 0x24 then BitVec.ofNat 24 (0x140 + 4 * (l.toNat - 0x14))
  else BitVec.ofNat 24 (0x190 + 4 * (l.toNat - 0x24))

/-- `LEVEL_CONFIGURED(l)` (52_interrupt.md R541). -/
def Config.levelConfigured (c : Config) (l : Level) : Bool := c.levels.contains l

/-- The ICL record of a device or channel address (53_input_output.md R571). -/
def Config.channel (c : Config) (n : BitVec 7) : Option Channel := c.channels.find? fun ch => decide (ch.device = n)

/-- The Class F channel whose Service Interrupt level is `l` (`LEVEL_IS_CLASS_F`, 52_interrupt.md R541). -/
def Config.classFLevel (c : Config) (l : Level) : Option Channel :=
  c.channels.find? fun ch => decide (ch.cls = .classF) && decide (ch.level = l)

/-- `enabled(l)`: for levels 0 and 1 the RTOM jumper may provide a constant enable (52_interrupt.md R541). -/
def State.levelEnabled (s : State) (l : Level) : Bool :=
  s.enabled.getLsbD l.toNat || (decide (l.toNat < 2) && !s.cfg.rtomSoftwareEnable)

def State.setEnabled (s : State) (l : Level) (b : Bool) : State :=
  { s with enabled := if b then s.enabled ||| levelBit l else s.enabled &&& ~~~levelBit l }

def State.setRequesting (s : State) (l : Level) (b : Bool) : State :=
  { s with requesting := if b then s.requesting ||| levelBit l else s.requesting &&& ~~~levelBit l }

def State.setActive (s : State) (l : Level) (b : Bool) : State :=
  { s with active := if b then s.active ||| levelBit l else s.active &&& ~~~levelBit l }

/-- The lowest level from `l` on that can be acknowledged: requesting, enabled, and no active level at or above its
priority (10_state.md R56). A Class F channel's level is no exception in PSW mode, where the channel itself cannot
be addressed (53_input_output.md R571): it is acknowledged through the PSW block (log 38). -/
def State.eligibleFrom (s : State) : Nat → Nat → Option Level
  | 0, _ => none
  | n + 1, l =>
    if s.active.getLsbD l then none
    else if s.requesting.getLsbD l && s.levelEnabled (BitVec.ofNat 7 l) && isInterruptLevel (BitVec.ofNat 7 l) then
      some (BitVec.ofNat 7 l)
    else s.eligibleFrom n (l + 1)

/-- The level to acknowledge, if any (60_exceptions.md R661 (c)). -/
def State.eligible (s : State) : Option Level :=
  if s.requesting = 0 then none else s.eligibleFrom 128 0

/-- The lowest active level. -/
def State.lowestActive (s : State) : Nat → Nat → Option Level
  | 0, _ => none
  | n + 1, l => if s.active.getLsbD l then some (BitVec.ofNat 7 l) else s.lowestActive n (l + 1)

/-- Whether a level below `n` is active or requesting (60_exceptions.md R622). -/
def State.higherBusy (s : State) (l : Level) : Bool :=
  decide ((s.active ||| s.requesting) &&& (levelBit l - 1) ≠ 0)

/-! ## Interrupt entry (60_exceptions.md R652) -/

/-- A Class F channel reports its status: it writes its two status words and hands over their address
(53_input_output.md R594); all are free values, but for bits 30-31 of word 1, which are zero (log 10). -/
def State.takeChannelStatus (s : State) (ch : BitVec 7) : State × Addr :=
  let st := Config.channelStatus s.freeIx ch
  (({ s with freeIx := s.freeIx + 1 }.realWriteOrLose st.addr (st.word1 &&& 0xFFFFFFFC)).realWriteOrLose (st.addr + 4) st.word2, st.addr)

/-- Word 6 of a Class F block receives the status address (R651). -/
def State.storeChannelStatus (s : State) (l : Level) (icb : Addr) (k : State → Switch) : Switch :=
  match Config.classFLevel s.cfg l with
  | none => k s
  | some ch =>
    (s.takeChannelStatus ch.device).1.switchWrite (icb + 20)
      (BitVec.zeroExtend 32 (s.takeChannelStatus ch.device).2) k

/-- The end of a PSD-mode entry: Block without Activate when bits 48-49 are 01, else Block with Activate. -/
def State.markEntered (s : State) (l : Level) (n2 : Word) : State :=
  if n2.extractLsb' 14 2 = 0b01#2 then s else { s.setActive l true with nonint := true }

def Switch.mark (l : Level) (n2 : Word) : Switch → Switch
  | .done s => .done (s.markEntered l n2)
  | .memory e s => .memory e s
  | .overflow s => .overflow (s.markEntered l n2)

/-- The context switch of an interrupt in PSD mode. -/
def State.interruptSwitch (s : State) (l : Level) : Switch :=
  s.switchRead (levelVector l) fun s0 v =>
    s0.storeOldPsd (vectorAddr v) fun s1 =>
      s1.storeChannelStatus l (vectorAddr v) fun s2 =>
        s2.switchRead (vectorAddr v + 8) fun s3 n1 =>
          s3.switchRead (vectorAddr v + 12) fun s4 n2 => (s4.loadPsd true n1 n2).mark l n2

/-- The Store, Place, and Branch sequence of PSW mode (R651, R652, D35). -/
def State.pswSwitch (s : State) (l : Level) : Switch :=
  s.switchRead (levelVector l) fun s0 v =>
    s0.switchWrite (vectorAddr v) s0.psd1Image fun s1 =>
      s1.switchRead (vectorAddr v + 4) fun s2 n => .done { (s2.setPsw n).setActive l true with nonint := true }

/-- Interrupt entry for level `l` (R652); a memory error is Machine Check in PSD mode (R632) and the trap halt in
PSW mode (R671). -/
def interruptEntry (l : Level) (s : State) : State :=
  let s0 := (s.setRequesting l false).wake
  match s.mode with
  | .psd => State.afterSwitch (s0.interruptSwitch l)
  | .psw =>
    match s0.pswSwitch l with
    | .done s1 => s1
    | .memory e s1 => ((s1.noteMemError e).orStatus e.statusBits).trapHalt (levelVector l)
    | .overflow s1 => s1

/-! ## PSW-mode delivery of traps (60_exceptions.md R622) -/

/-- The first RTOM's level for a condition, if PSW mode delivers it. The others cannot arise there (log 32). -/
def Trap.pswLevel : Trap → Option Level
  | .memoryParity _ => some 0x12
  | .nonpresent _ => some 0x24
  | .undefined => some 0x25
  | .privilege => some 0x26
  | .arithmetic => some 0x29
  | .powerFail => none
  | .machineCheck _ => none
  | .systemCheck _ => none
  | .mapFault _ => none
  | .blockTimeout => none
  | .endOfIpu => none

/-- The level at which PSW mode enters a trap: its level, when enabled, configured, not active and no higher level
is active or requesting; none when the condition is dropped (R622). -/
def State.pswEnters (s : State) (t : Trap) : Option Level :=
  match t.pswLevel with
  | none => none
  | some l =>
    if s.levelEnabled l && Config.levelConfigured s.cfg l && !s.active.getLsbD l.toNat && !s.higherBusy l then some l
    else none

/-- `psw_trap` (R622). -/
def pswTrap (t : Trap) (s : State) : State :=
  match s.pswEnters t with
  | none => s.orStatus (t.statusBits .psw)
  | some l => interruptEntry l (s.orStatus (t.statusBits .psw))

/-! ## Traps on an IPU (60_exceptions.md R681 to R684) -/

/-- `IPU_DONE_PENDING <- 1` when the Stop IPU trap has stored the old PSD and the status (R684). -/
def State.signalDone (s : State) (vector : Addr) : State :=
  { s with ipuDonePending := s.ipuDonePending || decide (vector = 0x2F4) }

/-- The context switch of an IPU trap whose context block is at `tcb` (R681). -/
def State.ipuSwitch (s : State) (vector tcb : Addr) : Switch :=
  s.storeOldPsd tcb fun s1 => s1.storeStatus tcb fun s2 => (s2.signalDone vector).enterNewPsd tcb

/-- A running IPU after a trap entry. -/
def State.ipuRunning (s : State) : State := { s with runState := .run, execDepth := false }

/-- The IPU error trap (R682). A memory error in its own context block stops the model, and so does a map overflow
in its own PSD load, which by R682 would enter the same trap again without end (log 20). -/
def ipuError (bits : Word) (s : State) : Outcome :=
  match (s.orStatus bits).switchRead 0x2EC fun s1 v => s1.ipuSwitch 0x2EC (vectorAddr v) with
  | .done s1 => .next s1.ipuRunning
  | .memory _ _ => .fault .ipuContextBlock
  | .overflow _ => .fault .ipuContextBlock

/-- What follows the context switch of an IPU trap other than the error trap (R682). -/
def afterIpuSwitch : Switch → Outcome
  | .done s => .next s.ipuRunning
  | .memory e s => ipuError e.statusBits (s.noteMemError e)
  | .overflow s => ipuError (statusBit 16) s

/-- `ipu_trap(v)` (R681). -/
def ipuTrap (vector : Addr) (s : State) : Outcome :=
  afterIpuSwitch (s.switchRead vector fun s1 v => s1.ipuSwitch vector (vectorAddr v))

/-! ## Raising -/

/-- Whether a trap reports a parity error, which lights PARITY ERROR (70_reset_and_hazards.md R735). -/
def Trap.isParity : Trap → Bool
  | .memoryParity _ => true
  | .machineCheck (.memory .parity) => true
  | _ => false

/-- What every raise leaves: the instruction counts as abandoned (log 16), a parity error lights its indicator. -/
def State.abandon (s : State) (t : Trap) : State :=
  { s with
    abandoned := true
    execDepth := false
    panel := { s.panel with parityLight := s.panel.parityLight || t.isParity } }

/-- TAKING AN EXCEPTION: `raise t` (60_exceptions.md R653, R622, R682), by role and mode. -/
def raise (t : Trap) (s : State) : Outcome :=
  match s.cfg.role with
  | .ipu => ipuError t.ipuStatusBits (s.abandon t)
  | .cpu =>
    match s.mode with
    | .psd => .next (trapEntry entryLimit t (s.abandon t))
    | .psw => .next (pswTrap t (s.abandon t))

/-- The rest of an instruction after an operation: a trap is raised at once. -/
def Res.finish {α : Type} (x : Res α) (k : α → State → Outcome) : Outcome :=
  match x with
  | .ok a s => k a s
  | .trap t s => raise t s
  | .stuck f => .fault f

/-- Whether an arithmetic exception, if there is one, leads to a trap: the mask, or on a CPU the PSW mode, lets it
be (60_exceptions.md R640). -/
def State.arithDue (s : State) (ae : Bool) : Bool :=
  ae && (s.aexp || (decide (s.cfg.role = .cpu) && decide (s.mode = .psw)))

/-- `arithmetic_exception()` (60_exceptions.md R640): the trap is pending until the boundary; an IPU's status bit 23
is set at once. -/
def State.arithException (s : State) (ae : Bool) : State :=
  { s with
    pendingArith := s.pendingArith || s.arithDue ae
    spad := if s.arithDue ae && decide (s.cfg.role = .ipu) then s.spad.set 0x91 (s.status ||| statusBit 23) else s.spad }

/-- The Supervisor Call trap (60_exceptions.md R626, R683). The call number is word 5 on a CPU, the status word on
an IPU. The SVC counts as completed even where its own entry ends in a Machine Check or a Map Fault (log 16). -/
def svcTrap (ix : BitVec 4) (call : BitVec 12) (s : State) : Outcome :=
  match s.cfg.role with
  | .cpu =>
    .next (State.afterSwitch (s.switchRead 0x180 fun s1 t =>
      s1.switchRead (vectorAddr t + BitVec.zeroExtend 24 (ix ++ 0#2)) fun s2 v =>
        s2.storeOldPsd (vectorAddr v) fun s3 =>
          s3.switchWrite (vectorAddr v + 16) (BitVec.zeroExtend 32 call) fun s4 => s4.enterNewPsd (vectorAddr v)))
  | .ipu =>
    afterIpuSwitch (s.switchRead 0x2E8 fun s1 t =>
      s1.switchRead (vectorAddr t + BitVec.zeroExtend 24 (ix ++ 0#2)) fun s2 v => s2.ipuSwitch 0x2E8 (vectorAddr v))

/-! ## The checks before an instruction (30_encoding.md R148): mode, role, privilege, in that order -/

/-- R170: an instruction of PSD mode alone. -/
def psdOnly (s : State) (k : Outcome) : Outcome :=
  match s.mode with
  | .psd => k
  | .psw => raise .undefined s

/-- R171: an instruction an IPU does not implement. -/
def cpuOnly (s : State) (k : Outcome) : Outcome :=
  match s.cfg.role with
  | .cpu => k
  | .ipu => raise .undefined s

/-- 60_exceptions.md R630: a privileged instruction. -/
def privileged (s : State) (k : Outcome) : Outcome := if s.priv then k else raise .privilege s

end Sys2Proof.Machine
end

