-- ==== Sys2Proof/Machine/Flags.lean ====
section
/-! DEFINITION. Condition code computations (10_state.md R40, R41). -/

namespace Sys2Proof.Machine

/-- The four condition code bits, CC1 first (R40). -/
def ccBits (c1 c2 c3 c4 : Bool) : BitVec 4 :=
  BitVec.ofBool c1 ++ BitVec.ofBool c2 ++ BitVec.ofBool c3 ++ BitVec.ofBool c4

/-- `CC_arith` (R40): CC1 the arithmetic exception, then greater than, less than, equal to zero of the result read as
two's complement. -/
def ccOf {n : Nat} (ae : Bool) (v : BitVec n) : BitVec 4 :=
  ccBits ae (decide (0 < v.toInt)) (decide (v.toInt < 0)) (decide (v = 0))

/-- The setting of the instructions that test only for zero: (0, 0, 0, result = 0). -/
def ccZero {n : Nat} (v : BitVec n) : BitVec 4 := ccBits false false false (decide (v = 0))

/-- A compare's setting: greater, less, equal of two's complement values (45_compare.md R320). -/
def ccCompare {n : Nat} (a b : BitVec n) : BitVec 4 :=
  ccBits false (decide (b.toInt < a.toInt)) (decide (a.toInt < b.toInt)) (decide (a.toInt = b.toInt))

/-- The setting of the bit instructions (48_bit_manipulation.md R401): the old CC1 to CC3 shifted into CC2 to CC4, and
CC1 the bit. -/
def ccShift (old : BitVec 4) (bit : Bool) : BitVec 4 := BitVec.ofBool bit ++ old.extractLsb' 1 3

/-- CC1 to CC4 as Booleans. -/
def cc1 (cc : BitVec 4) : Bool := cc.getLsbD 3
def cc2 (cc : BitVec 4) : Bool := cc.getLsbD 2
def cc3 (cc : BitVec 4) : Bool := cc.getLsbD 1
def cc4 (cc : BitVec 4) : Bool := cc.getLsbD 0

/-- Overflow of a two's complement sum. -/
def addOverflow {n : Nat} (a b : BitVec n) : Bool := decide ((a + b).toInt ≠ a.toInt + b.toInt)

/-- Overflow of a two's complement difference. -/
def subOverflow {n : Nat} (a b : BitVec n) : Bool := decide ((a - b).toInt ≠ a.toInt - b.toInt)

/-- Overflow of a negation: the one operand whose negation is not representable. -/
def negOverflow {n : Nat} (a : BitVec n) : Bool := subOverflow 0 a

/-- The result of an arithmetic instruction: condition code, then `arithmetic_exception()` (60_exceptions.md R640). -/
def State.setArith {n : Nat} (s : State) (ae : Bool) (v : BitVec n) : State :=
  (s.setCc (ccOf ae v)).arithException ae

end Sys2Proof.Machine
end

