-- ==== Sys2Proof/Syntax.lean ====
section
/-! DEFINITION. The instructions: one constructor per row of spec/opcode_table.json (30_encoding.md R149 to R154).
In a typed memory reference family the constructor is the member the STATIC F and C bits of the
instruction word name, as the assembler codes them (R91, R180); which operand runs is decided by the effective F and C bits after
indexing and indirection (R148). A member keeps exactly the address bits its encoding leaves free. -/

namespace Sys2Proof

/-- The operand part of a memory reference (30_encoding.md R141): X (bits 9-10), I (bit 11) and the `n` free bits
of the address. `n` is 20 with the F bit kept (bits 12-31), 19 for a byte address (bits 13-31), 18 for a halfword
address (bits 13-30) and 17 for a word or doubleword address (bits 13-29). -/
structure MemRef (n : Nat) where
  x    : BitVec 2
  ind  : Bool
  addr : BitVec n
  deriving DecidableEq, Repr

/-- One instruction. Register operands carry the manual's letters: `r` the R field, `d` and `s` the destination and
source of the interregister format (R143), `m` a memory operand, `v` an immediate value. -/
inductive Instr where
  /-- LB: 40_load_store.md R201. -/
  | lb (r : Reg) (m : MemRef 19)
  /-- LH: 40_load_store.md R202. -/
  | lh (r : Reg) (m : MemRef 18)
  /-- LW: 40_load_store.md R203. -/
  | lw (r : Reg) (m : MemRef 17)
  /-- LD: 40_load_store.md R204. -/
  | ld (r : Reg) (m : MemRef 17)
  /-- LMB: 40_load_store.md R205. -/
  | lmb (r : Reg) (m : MemRef 19)
  /-- LMH: 40_load_store.md R206. -/
  | lmh (r : Reg) (m : MemRef 18)
  /-- LMW: 40_load_store.md R207. -/
  | lmw (r : Reg) (m : MemRef 17)
  /-- LMD: 40_load_store.md R208. -/
  | lmd (r : Reg) (m : MemRef 17)
  /-- LNB: 40_load_store.md R209. -/
  | lnb (r : Reg) (m : MemRef 19)
  /-- LNH: 40_load_store.md R210. -/
  | lnh (r : Reg) (m : MemRef 18)
  /-- LNW: 40_load_store.md R211. -/
  | lnw (r : Reg) (m : MemRef 17)
  /-- LND: 40_load_store.md R212. -/
  | lnd (r : Reg) (m : MemRef 17)
  /-- LI: 40_load_store.md R213. -/
  | li (r : Reg) (v : Half)
  /-- LEA: 40_load_store.md R214. -/
  | lea (r : Reg) (m : MemRef 20)
  /-- LEAR: 40_load_store.md R215. -/
  | lear (r : Reg) (m : MemRef 20)
  /-- LA: 40_load_store.md R216. -/
  | la (r : Reg) (m : MemRef 20)
  /-- LF: 40_load_store.md R217. -/
  | lf (r : Reg) (m : MemRef 20)
  /-- STB: 40_load_store.md R218. -/
  | stb (r : Reg) (m : MemRef 19)
  /-- STH: 40_load_store.md R219. -/
  | sth (r : Reg) (m : MemRef 18)
  /-- STW: 40_load_store.md R220. -/
  | stw (r : Reg) (m : MemRef 17)
  /-- STD: 40_load_store.md R221. -/
  | std (r : Reg) (m : MemRef 17)
  /-- STMB: 40_load_store.md R222. -/
  | stmb (r : Reg) (m : MemRef 19)
  /-- STMH: 40_load_store.md R223. -/
  | stmh (r : Reg) (m : MemRef 18)
  /-- STMW: 40_load_store.md R224. -/
  | stmw (r : Reg) (m : MemRef 17)
  /-- STMD: 40_load_store.md R225. -/
  | stmd (r : Reg) (m : MemRef 17)
  /-- STF: 40_load_store.md R226. -/
  | stf (r : Reg) (m : MemRef 20)
  /-- ZMB: 40_load_store.md R227. -/
  | zmb (m : MemRef 19)
  /-- ZMH: 40_load_store.md R228. -/
  | zmh (m : MemRef 18)
  /-- ZMW: 40_load_store.md R229. -/
  | zmw (m : MemRef 17)
  /-- ZMD: 40_load_store.md R230. -/
  | zmd (m : MemRef 17)
  /-- ZR: 40_load_store.md R231. -/
  | zr (d : Reg)
  /-- TSCR: 41_register_transfer.md R251. -/
  | tscr (s : Reg) (d : Reg)
  /-- TRSC: 41_register_transfer.md R252. -/
  | trsc (s : Reg) (d : Reg)
  /-- TRR: 41_register_transfer.md R253. -/
  | trr (s : Reg) (d : Reg)
  /-- TRRM: 41_register_transfer.md R254. -/
  | trrm (s : Reg) (d : Reg)
  /-- TRP: 41_register_transfer.md R255. -/
  | trp (p : BitVec 4) (r : Reg)
  /-- TPR: 41_register_transfer.md R256. -/
  | tpr (p : BitVec 4) (r : Reg)
  /-- TRN: 41_register_transfer.md R257. -/
  | trn (s : Reg) (d : Reg)
  /-- TRNM: 41_register_transfer.md R258. -/
  | trnm (s : Reg) (d : Reg)
  /-- TRC: 41_register_transfer.md R259. -/
  | trc (s : Reg) (d : Reg)
  /-- TRCM: 41_register_transfer.md R260. -/
  | trcm (s : Reg) (d : Reg)
  /-- XCR: 41_register_transfer.md R261. -/
  | xcr (s : Reg) (d : Reg)
  /-- XCRM: 41_register_transfer.md R262. -/
  | xcrm (s : Reg) (d : Reg)
  /-- TRSW: 41_register_transfer.md R263. -/
  | trsw (s : Reg)
  /-- SEA: 42_memory_management.md R270. -/
  | sea
  /-- CEA: 42_memory_management.md R271. -/
  | cea
  /-- LMAP: 42_memory_management.md R272. -/
  | lmap (d : Reg)
  /-- TMAPR: 42_memory_management.md R273. -/
  | tmapr (s : Reg) (d : Reg)
  /-- WWCS: 43_wcs.md R281. -/
  | wwcs (s : Reg) (d : Reg)
  /-- RWCS: 43_wcs.md R282. -/
  | rwcs (s : Reg) (d : Reg)
  /-- JWCS: 43_wcs.md R283. -/
  | jwcs (m : MemRef 20)
  /-- BU: 44_branch.md R292. -/
  | bu (m : MemRef 20)
  /-- BCT: 44_branch.md R293. -/
  | bct (c : BitVec 3) (m : MemRef 20)
  /-- BCF: 44_branch.md R294. -/
  | bcf (c : BitVec 3) (m : MemRef 20)
  /-- BFT: 44_branch.md R295. -/
  | bft (m : MemRef 20)
  /-- BL: 44_branch.md R296. -/
  | bl (m : MemRef 20)
  /-- BIB: 44_branch.md R297. -/
  | bib (r : Reg) (ind : Bool) (a : BitVec 20)
  /-- BIH: 44_branch.md R298. -/
  | bih (r : Reg) (ind : Bool) (a : BitVec 20)
  /-- BIW: 44_branch.md R299. -/
  | biw (r : Reg) (ind : Bool) (a : BitVec 20)
  /-- BID: 44_branch.md R300. -/
  | bid (r : Reg) (ind : Bool) (a : BitVec 20)
  /-- CAMB: 45_compare.md R321. -/
  | camb (r : Reg) (m : MemRef 19)
  /-- CAMH: 45_compare.md R322. -/
  | camh (r : Reg) (m : MemRef 18)
  /-- CAMW: 45_compare.md R323. -/
  | camw (r : Reg) (m : MemRef 17)
  /-- CAMD: 45_compare.md R324. -/
  | camd (r : Reg) (m : MemRef 17)
  /-- CAR: 45_compare.md R325. -/
  | car (s : Reg) (d : Reg)
  /-- CI: 45_compare.md R326. -/
  | ci (r : Reg) (v : Half)
  /-- CMMB: 45_compare.md R327. -/
  | cmmb (r : Reg) (m : MemRef 19)
  /-- CMMH: 45_compare.md R328. -/
  | cmmh (r : Reg) (m : MemRef 18)
  /-- CMMW: 45_compare.md R329. -/
  | cmmw (r : Reg) (m : MemRef 17)
  /-- CMMD: 45_compare.md R330. -/
  | cmmd (r : Reg) (m : MemRef 17)
  /-- CMR: 45_compare.md R331. -/
  | cmr (s : Reg) (d : Reg)
  /-- ANMB: 46_logical.md R341. -/
  | anmb (r : Reg) (m : MemRef 19)
  /-- ANMH: 46_logical.md R342. -/
  | anmh (r : Reg) (m : MemRef 18)
  /-- ANMW: 46_logical.md R343. -/
  | anmw (r : Reg) (m : MemRef 17)
  /-- ANMD: 46_logical.md R344. -/
  | anmd (r : Reg) (m : MemRef 17)
  /-- ANR: 46_logical.md R345. -/
  | anr (s : Reg) (d : Reg)
  /-- ORMB: 46_logical.md R346. -/
  | ormb (r : Reg) (m : MemRef 19)
  /-- ORMH: 46_logical.md R347. -/
  | ormh (r : Reg) (m : MemRef 18)
  /-- ORMW: 46_logical.md R348. -/
  | ormw (r : Reg) (m : MemRef 17)
  /-- ORMD: 46_logical.md R349. -/
  | ormd (r : Reg) (m : MemRef 17)
  /-- ORR: 46_logical.md R350. -/
  | orr (s : Reg) (d : Reg)
  /-- ORRM: 46_logical.md R351. -/
  | orrm (s : Reg) (d : Reg)
  /-- EOMB: 46_logical.md R352. -/
  | eomb (r : Reg) (m : MemRef 19)
  /-- EOMH: 46_logical.md R353. -/
  | eomh (r : Reg) (m : MemRef 18)
  /-- EOMW: 46_logical.md R354. -/
  | eomw (r : Reg) (m : MemRef 17)
  /-- EOMD: 46_logical.md R355. -/
  | eomd (r : Reg) (m : MemRef 17)
  /-- EOR: 46_logical.md R356. -/
  | eor (s : Reg) (d : Reg)
  /-- EORM: 46_logical.md R357. -/
  | eorm (s : Reg) (d : Reg)
  /-- NOR: 47_shift.md R371. -/
  | nor (s : Reg) (d : Reg)
  /-- NORD: 47_shift.md R372. -/
  | nord (s : Reg) (d : Reg)
  /-- SCZ: 47_shift.md R373. -/
  | scz (s : Reg) (d : Reg)
  /-- SLA: 47_shift.md R374. -/
  | sla (r : Reg) (n : BitVec 5)
  /-- SLL: 47_shift.md R375. -/
  | sll (r : Reg) (n : BitVec 5)
  /-- SLC: 47_shift.md R376. -/
  | slc (r : Reg) (n : BitVec 5)
  /-- SLAD: 47_shift.md R377. -/
  | slad (r : Reg) (n : BitVec 5)
  /-- SLLD: 47_shift.md R378. -/
  | slld (r : Reg) (n : BitVec 5)
  /-- SRA: 47_shift.md R379. -/
  | sra (r : Reg) (n : BitVec 5)
  /-- SRL: 47_shift.md R380. -/
  | srl (r : Reg) (n : BitVec 5)
  /-- SRC: 47_shift.md R381. -/
  | src (r : Reg) (n : BitVec 5)
  /-- SRAD: 47_shift.md R382. -/
  | srad (r : Reg) (n : BitVec 5)
  /-- SRLD: 47_shift.md R383. -/
  | srld (r : Reg) (n : BitVec 5)
  /-- SBM: 48_bit_manipulation.md R402. -/
  | sbm (c : BitVec 3) (m : MemRef 20)
  /-- SBR: 48_bit_manipulation.md R403. -/
  | sbr (c : BitVec 3) (r : Reg) (b : BitVec 2)
  /-- ZBM: 48_bit_manipulation.md R404. -/
  | zbm (c : BitVec 3) (m : MemRef 20)
  /-- ZBR: 48_bit_manipulation.md R405. -/
  | zbr (c : BitVec 3) (r : Reg) (b : BitVec 2)
  /-- ABM: 48_bit_manipulation.md R406. -/
  | abm (c : BitVec 3) (m : MemRef 20)
  /-- ABR: 48_bit_manipulation.md R407. -/
  | abr (c : BitVec 3) (r : Reg) (b : BitVec 2)
  /-- TBM: 48_bit_manipulation.md R408. -/
  | tbm (c : BitVec 3) (m : MemRef 20)
  /-- TBR: 48_bit_manipulation.md R409. -/
  | tbr (c : BitVec 3) (r : Reg) (b : BitVec 2)
  /-- ADMB: 49_fixed_point.md R422. -/
  | admb (r : Reg) (m : MemRef 19)
  /-- ADMH: 49_fixed_point.md R423. -/
  | admh (r : Reg) (m : MemRef 18)
  /-- ADMW: 49_fixed_point.md R424. -/
  | admw (r : Reg) (m : MemRef 17)
  /-- ADMD: 49_fixed_point.md R425. -/
  | admd (r : Reg) (m : MemRef 17)
  /-- ADR: 49_fixed_point.md R426. -/
  | adr (s : Reg) (d : Reg)
  /-- ADRM: 49_fixed_point.md R427. -/
  | adrm (s : Reg) (d : Reg)
  /-- ARMB: 49_fixed_point.md R428. -/
  | armb (r : Reg) (m : MemRef 19)
  /-- ARMH: 49_fixed_point.md R429. -/
  | armh (r : Reg) (m : MemRef 18)
  /-- ARMW: 49_fixed_point.md R430. -/
  | armw (r : Reg) (m : MemRef 17)
  /-- ARMD: 49_fixed_point.md R431. -/
  | armd (r : Reg) (m : MemRef 17)
  /-- ADI: 49_fixed_point.md R432. -/
  | adi (r : Reg) (v : Half)
  /-- SUMB: 49_fixed_point.md R433. -/
  | sumb (r : Reg) (m : MemRef 19)
  /-- SUMH: 49_fixed_point.md R434. -/
  | sumh (r : Reg) (m : MemRef 18)
  /-- SUMW: 49_fixed_point.md R435. -/
  | sumw (r : Reg) (m : MemRef 17)
  /-- SUMD: 49_fixed_point.md R436. -/
  | sumd (r : Reg) (m : MemRef 17)
  /-- SUR: 49_fixed_point.md R437. -/
  | sur (s : Reg) (d : Reg)
  /-- SURM: 49_fixed_point.md R438. -/
  | surm (s : Reg) (d : Reg)
  /-- SUI: 49_fixed_point.md R439. -/
  | sui (r : Reg) (v : Half)
  /-- MPMB: 49_fixed_point.md R441. -/
  | mpmb (r : Reg) (m : MemRef 19)
  /-- MPMH: 49_fixed_point.md R442. -/
  | mpmh (r : Reg) (m : MemRef 18)
  /-- MPMW: 49_fixed_point.md R443. -/
  | mpmw (r : Reg) (m : MemRef 18)
  /-- MPR: 49_fixed_point.md R444. -/
  | mpr (s : Reg) (d : Reg)
  /-- MPI: 49_fixed_point.md R445. -/
  | mpi (r : Reg) (v : Half)
  /-- DVMB: 49_fixed_point.md R447. -/
  | dvmb (r : Reg) (m : MemRef 19)
  /-- DVMH: 49_fixed_point.md R448. -/
  | dvmh (r : Reg) (m : MemRef 18)
  /-- DVMW: 49_fixed_point.md R449. -/
  | dvmw (r : Reg) (m : MemRef 18)
  /-- DVR: 49_fixed_point.md R450. -/
  | dvr (s : Reg) (d : Reg)
  /-- DVI: 49_fixed_point.md R451. -/
  | dvi (r : Reg) (v : Half)
  /-- ES: 49_fixed_point.md R452. -/
  | es (d : Reg)
  /-- RND: 49_fixed_point.md R453. -/
  | rnd (d : Reg)
  /-- ADFW: 50_floating_point.md R486. -/
  | adfw (r : Reg) (m : MemRef 19)
  /-- ADFD: 50_floating_point.md R487. -/
  | adfd (r : Reg) (m : MemRef 17)
  /-- SUFW: 50_floating_point.md R488. -/
  | sufw (r : Reg) (m : MemRef 19)
  /-- SUFD: 50_floating_point.md R489. -/
  | sufd (r : Reg) (m : MemRef 17)
  /-- MPFW: 50_floating_point.md R490. -/
  | mpfw (r : Reg) (m : MemRef 19)
  /-- MPFD: 50_floating_point.md R491. -/
  | mpfd (r : Reg) (m : MemRef 17)
  /-- DVFW: 50_floating_point.md R492. -/
  | dvfw (r : Reg) (m : MemRef 19)
  /-- DVFD: 50_floating_point.md R493. -/
  | dvfd (r : Reg) (m : MemRef 17)
  /-- BRI: 51_control.md R501. -/
  | bri (m : MemRef 20)
  /-- LPSD: 51_control.md R502. -/
  | lpsd (m : MemRef 20)
  /-- LCS: 51_control.md R503. -/
  | lcs (d : Reg)
  /-- LPSDCM: 51_control.md R504. -/
  | lpsdcm (m : MemRef 20)
  /-- EXR: 51_control.md R506. -/
  | exr (s : Reg)
  /-- EXRR: 51_control.md R507. -/
  | exrr (s : Reg)
  /-- EXM: 51_control.md R508. -/
  | exm (m : MemRef 19)
  /-- HALT: 51_control.md R509. -/
  | halt
  /-- WAIT: 51_control.md R510. -/
  | wait
  /-- NOP: 51_control.md R511. -/
  | nop
  /-- SIPU: 51_control.md R512. -/
  | sipu
  /-- CALM: 51_control.md R513. -/
  | calm (flags : BitVec 10)
  /-- SVC: 51_control.md R514. -/
  | svc (ix : BitVec 4) (call : BitVec 12)
  /-- SETCPU: 51_control.md R521. -/
  | setcpu (s : Reg)
  /-- RDSTS: 51_control.md R525. -/
  | rdsts (d : Reg)
  /-- EAE: 51_control.md R526. -/
  | eae
  /-- DAE: 51_control.md R527. -/
  | dae
  /-- EI: 52_interrupt.md R542. -/
  | ei (l : BitVec 7)
  /-- DI: 52_interrupt.md R543. -/
  | di (l : BitVec 7)
  /-- RI: 52_interrupt.md R544. -/
  | ri (l : BitVec 7)
  /-- AI: 52_interrupt.md R545. -/
  | ai (l : BitVec 7)
  /-- DAI: 52_interrupt.md R546. -/
  | dai (l : BitVec 7)
  /-- ECI: 52_interrupt.md R548. -/
  | eci (r : Reg) (k : Half)
  /-- DCI: 52_interrupt.md R549. -/
  | dci (r : Reg) (k : Half)
  /-- ACI: 52_interrupt.md R550. -/
  | aci (r : Reg) (k : Half)
  /-- DACI: 52_interrupt.md R551. -/
  | daci (r : Reg) (k : Half)
  /-- BEI: 52_interrupt.md R552. -/
  | bei
  /-- UEI: 52_interrupt.md R553. -/
  | uei
  /-- CD: 53_input_output.md R575. -/
  | cd (n : BitVec 7) (f : Half)
  /-- TD: 53_input_output.md R576. -/
  | td (n : BitVec 7) (f : Half)
  /-- SIO: 53_input_output.md R580. -/
  | sio (r : Reg) (k : Half)
  /-- TIO: 53_input_output.md R581. -/
  | tio (r : Reg) (k : Half)
  /-- STPIO: 53_input_output.md R582. -/
  | stpio (r : Reg) (k : Half)
  /-- RSCHNL: 53_input_output.md R583. -/
  | rschnl (r : Reg) (k : Half)
  /-- HIO: 53_input_output.md R584. -/
  | hio (r : Reg) (k : Half)
  /-- GRIO: 53_input_output.md R585. -/
  | grio (r : Reg) (k : Half)
  /-- RSCTL: 53_input_output.md R586. -/
  | rsctl (r : Reg) (k : Half)
  /-- ECWCS: 53_input_output.md R587. -/
  | ecwcs (r : Reg) (k : Half)
  /-- WCWCS: 53_input_output.md R588. -/
  | wcwcs (r : Reg) (k : Half)
  deriving DecidableEq, Repr

end Sys2Proof
end

