-- ==== Sys2Proof/Machine/Operands.lean ====
section
/-! DEFINITION. Memory operands: the address word of each member and the operand its effective F and C bits select
(20_memory.md R90 to R92). -/

namespace Sys2Proof

/-- Bits 9-31 of the instruction word; bits 0-8 take no part in addressing (R90). -/
def MemRef.word (m : MemRef 20) : Word := 0#9 ++ m.x ++ BitVec.ofBool m.ind ++ m.addr

/-- A byte member's bits 12-31: F = 1. -/
def MemRef.ofByte (m : MemRef 19) : MemRef 20 := ⟨m.x, m.ind, 1#1 ++ m.addr⟩

/-- A halfword member's: F = 0, bit 31 = 1. -/
def MemRef.ofHalf (m : MemRef 18) : MemRef 20 := ⟨m.x, m.ind, 0#1 ++ m.addr ++ 1#1⟩

/-- A word member's: F = 0, C = 00. -/
def MemRef.ofWord (m : MemRef 17) : MemRef 20 := ⟨m.x, m.ind, 0#1 ++ m.addr ++ 0#2⟩

/-- A doubleword member's: F = 0, C = 10. -/
def MemRef.ofDouble (m : MemRef 17) : MemRef 20 := ⟨m.x, m.ind, 0#1 ++ m.addr ++ 2#2⟩

/-- A word member's of a family without a doubleword member: F = 0, bit 31 = 0. -/
def MemRef.ofWide (m : MemRef 18) : MemRef 20 := ⟨m.x, m.ind, 0#1 ++ m.addr ++ 0#1⟩

/-- A member whose bit 12 is fixed to `f` and whose bits 13-31 are free. -/
def MemRef.ofFixed (f : Bool) (m : MemRef 19) : MemRef 20 := ⟨m.x, m.ind, BitVec.ofBool f ++ m.addr⟩

/-- A floating-point doubleword member's: bit 12 is `f`, C = 10. -/
def MemRef.ofFixedDouble (f : Bool) (m : MemRef 17) : MemRef 20 := ⟨m.x, m.ind, BitVec.ofBool f ++ m.addr ++ 2#2⟩

namespace Machine

/-- An operand's type and byte address (R91). -/
inductive Operand where
  | byte (a : Addr)
  | half (a : Addr)
  | word (a : Addr)
  | double (a : Addr)
  deriving DecidableEq, Repr

/-- An address with its low two bits forced to 00 (R92). -/
def wordAddr (a : Addr) : Addr := a &&& 0xFFFFFC

/-- An address with its low three bits forced to 000 (R91). -/
def doubleAddr (a : Addr) : Addr := a &&& 0xFFFFF8

/-- The operand the effective F bit and C bits select (R91). -/
def Effective.operand (e : Effective) : Operand :=
  if e.ef then .byte e.ea
  else if e.ea.getLsbD 0 then .half (e.ea &&& 0xFFFFFE)
  else if e.ea.getLsbD 1 then .double (doubleAddr e.ea)
  else .word e.ea

/-- What each member of a memory reference family does at its operand's address. -/
structure Members where
  byte   : Addr → State → Outcome
  half   : Addr → State → Outcome
  word   : Addr → State → Outcome
  double : Addr → State → Outcome

/-- A member that does not exist: the combination is an unassigned encoding (30_encoding.md R160 (h)). -/
def noMember (_ : Addr) (s : State) : Outcome := raise .undefined s

/-- A typed memory reference: addressing, then the member the effective F and C bits select (30_encoding.md R148). -/
def withOperand (w : Word) (m : Members) (s : State) : Outcome :=
  (s.effective w).finish fun e s1 =>
    match e.operand with
    | .byte a => m.byte a s1
    | .half a => m.half a s1
    | .word a => m.word a s1
    | .double a => m.double a s1

/-- A memory reference whose operand is always a word: F and C are ignored (20_memory.md R91, R92). -/
def withWord (w : Word) (k : Addr → State → Outcome) (s : State) : Outcome :=
  (s.effective w).finish fun e s1 => k (wordAddr e.ea) s1

end Machine
end Sys2Proof
end

