-- ==== Sys2Proof/Machine/BitManipulation.lean ====
section
/-! DEFINITION. Bit Manipulation (48_bit_manipulation.md R400 to R410). -/

namespace Sys2Proof.Machine

/-- A read-modify-write under the memory word lock (20_memory.md R120; log 26), one memory transaction but where the
operation passes the lock on to a second word (`State.relock`); the lock is free again when it has ended, however it
ended. -/
def withLock {α : Type} (f : State → Res α) (s : State) : Res α :=
  match f { s.transact with memLock := true } with
  | .ok a s1 => .ok a { s1 with memLock := false }
  | .trap t s1 => .trap t { s1 with memLock := false }
  | .stuck x => .stuck x

/-- The lock passed on from one memory word to the next: the second word's memory transaction begins (R120; log 26).
-/
def State.relock (s : State) : State := { { s with memLock := false }.transact with memLock := true }

/-- The mask of bit `c` of a byte, bit 0 the most significant (R400). -/
def byteBit (c : BitVec 3) : Byte := 0x80 >>> c.toNat

/-- The mask of bit `p` of a word, bit 0 the most significant. -/
def wordBit (p : BitVec 5) : Word := 0x80000000 >>> p.toNat

/-- Whether bit `c` of a byte is one. -/
def byteHas (b : Byte) (c : BitVec 3) : Bool := decide (b &&& byteBit c ≠ 0)

/-- Whether bit `p` of a word is one. -/
def wordHas (w : Word) (p : BitVec 5) : Bool := decide (w &&& wordBit p ≠ 0)

/-- The byte read, and what `f` makes of it written back, as one action (R402, R410). -/
def State.modify8 (s : State) (a : Addr) (f : Byte → Byte) : Res Byte :=
  withLock (fun s0 => (s0.load8 a).bind fun b s1 => (s1.store8 a (f b)).bind fun _ s2 => .ok b s2) s

/-- The word read, and what `f` makes of it written back, as one action (R406). -/
def State.modify32 (s : State) (a : Addr) (f : Word → Word) : Res Word :=
  withLock (fun s0 => (s0.load32 a).bind fun w s1 => (s1.store32 a (f w)).bind fun _ s2 => .ok w s2) s

/-- A bit-in-memory instruction: the operand is a byte; EF = 0 is an undefined instruction (R400, D28). -/
def withByte (m : MemRef 20) (k : Addr → State → Outcome) (s : State) : Outcome :=
  (s.effective m.word).finish fun e s1 => if e.ef then k e.ea s1 else raise .undefined s1

/-- SBM and ZBM: the bit's old value is shifted into the condition code; the byte is written even if unchanged
(R402, R404). -/
def modifyBit (f : Byte → Byte) (c : BitVec 3) (a : Addr) (s : State) : Outcome :=
  (s.modify8 a f).finish fun b s1 => .next (s1.setCc (ccShift s1.cc (byteHas b c)))

/-- SBM (R402). -/
def execSbm (c : BitVec 3) (m : MemRef 20) (s : State) : Outcome :=
  withByte m (modifyBit (fun b => b ||| byteBit c) c) s

/-- ZBM (R404). -/
def execZbm (c : BitVec 3) (m : MemRef 20) (s : State) : Outcome :=
  withByte m (modifyBit (fun b => b &&& ~~~byteBit c) c) s

/-- The position in its word of bit `c` of the byte at `a` (R406). -/
def bitPosition (a : Addr) (c : BitVec 3) : BitVec 5 := a.extractLsb' 0 2 ++ c

/-- ABM (R406): the whole word takes part in the addition. -/
def execAbm (c : BitVec 3) (m : MemRef 20) (s : State) : Outcome :=
  withByte m (fun a s1 =>
    let k := wordBit (bitPosition a c)
    (s1.modify32 (wordAddr a) (fun w => w + k)).finish fun w s2 => .next (s2.setArith (addOverflow w k) (w + k))) s

/-- TBM (R408): memory is not written. -/
def execTbm (c : BitVec 3) (m : MemRef 20) (s : State) : Outcome :=
  withByte m (fun a s1 => (s1.load8 a).finish fun b s2 => .next (s2.setCc (ccShift s2.cc (byteHas b c)))) s

/-- SBR (R403): bit `8 * byte + c` of the register. -/
def execSbr (c : BitVec 3) (r : Reg) (b : BitVec 2) (s : State) : Outcome :=
  .next ((s.setReg r (s.reg r ||| wordBit (b ++ c))).setCc (ccShift s.cc (wordHas (s.reg r) (b ++ c))))

/-- ZBR (R405). -/
def execZbr (c : BitVec 3) (r : Reg) (b : BitVec 2) (s : State) : Outcome :=
  .next ((s.setReg r (s.reg r &&& ~~~wordBit (b ++ c))).setCc (ccShift s.cc (wordHas (s.reg r) (b ++ c))))

/-- ABR (R407). -/
def execAbr (c : BitVec 3) (r : Reg) (b : BitVec 2) (s : State) : Outcome :=
  .next ((s.setReg r (s.reg r + wordBit (b ++ c))).setArith (addOverflow (s.reg r) (wordBit (b ++ c)))
    (s.reg r + wordBit (b ++ c)))

/-- TBR (R409). -/
def execTbr (c : BitVec 3) (r : Reg) (b : BitVec 2) (s : State) : Outcome :=
  .next (s.setCc (ccShift s.cc (wordHas (s.reg r) (b ++ c))))

end Sys2Proof.Machine
end

