-- ==== Sys2Proof/Machine/Branch.lean ====
section
/-! DEFINITION. Branch (44_branch.md R290 to R301). -/

namespace Sys2Proof.Machine

/-- The branch itself: bits 13-30 of the effective address, and after an indirect branch bits 1-4 of the last word of
the chain as the condition code (R290, R291). -/
def State.branch (s : State) (ind : Bool) (e : Effective) : State :=
  { s with pc := e.ea.extractLsb' 1 18, cc := if ind then e.word.extractLsb' 27 4 else s.cc }

/-- A branch that is taken: the chain is walked, then the branch (R292). -/
def takeBranch (m : MemRef 20) (s : State) : Outcome :=
  (s.effective m.word).finish fun e s1 => .next (s1.branch m.ind e)

/-- A conditional branch: an untaken branch does not walk its chain (R293, D26). -/
def branchIf (c : Bool) (m : MemRef 20) (s : State) : Outcome := if c then takeBranch m s else .next s

/-- BCT's condition table (R293; log 31). -/
def conditionTrue (d : BitVec 3) (cc : BitVec 4) : Bool :=
  match d.toNat with
  | 1 => cc1 cc
  | 2 => cc2 cc
  | 3 => cc3 cc
  | 4 => cc4 cc
  | 5 => cc2 cc || cc4 cc
  | 6 => cc3 cc || cc4 cc
  | 7 => cc1 cc || cc2 cc || cc3 cc || cc4 cc
  | _ => true

/-- BCF's condition table (R294). -/
def conditionFalse (d : BitVec 3) (cc : BitVec 4) : Bool :=
  match d.toNat with
  | 1 => !cc1 cc
  | 2 => !cc2 cc
  | 3 => !cc3 cc
  | 4 => !cc4 cc
  | 5 => !cc2 cc && !cc4 cc
  | 6 => !cc3 cc && !cc4 cc
  | 7 => !cc1 cc && !cc2 cc && !cc3 cc && !cc4 cc
  | _ => false

/-- BFT's function bit: bit 16 + n of R4, n the condition code as a number (R295). -/
def State.functionBit (s : State) : Bool := (s.reg 4).getLsbD (15 - s.cc.toNat)

/-- The link word: PSD word 1 with bit 6 zero and the address of the next instruction (R296). -/
def State.link (s : State) : Word := { s with hist := false }.psd1Image

/-- BU (R292). -/
def execBu (m : MemRef 20) (s : State) : Outcome := takeBranch m s

/-- BCT (R293). -/
def execBct (c : BitVec 3) (m : MemRef 20) (s : State) : Outcome := branchIf (conditionTrue c s.cc) m s

/-- BCF (R294). -/
def execBcf (c : BitVec 3) (m : MemRef 20) (s : State) : Outcome := branchIf (conditionFalse c s.cc) m s

/-- BFT (R295). -/
def execBft (m : MemRef 20) (s : State) : Outcome := branchIf s.functionBit m s

/-- BL (R296): R0 is written after the chain is walked, so a trap in it leaves R0 alone (D26). -/
def execBl (m : MemRef 20) (s : State) : Outcome :=
  (s.effective m.word).finish fun e s1 => .next ((s1.setReg 0 s.link).branch m.ind e)

/-- BIx: the register is incremented, then the branch is taken if it is not zero; no indexing by the instruction word
(R297). The next instruction is not the target of the panel's HALT (note 4). -/
def branchIncrement (k : Word) (r : Reg) (ind : Bool) (a : BitVec 20) (s : State) : Outcome :=
  branchIf (decide (s.reg r + k ≠ 0)) ⟨0, ind, a⟩ { s.setReg r (s.reg r + k) with noHalt := true }

/-- BIB (R297): "incremented in bit position 31". -/
def execBib (r : Reg) (ind : Bool) (a : BitVec 20) (s : State) : Outcome := branchIncrement 1 r ind a s

/-- BIH (R298): bit position 30. -/
def execBih (r : Reg) (ind : Bool) (a : BitVec 20) (s : State) : Outcome := branchIncrement 2 r ind a s

/-- BIW (R299): bit position 29. -/
def execBiw (r : Reg) (ind : Bool) (a : BitVec 20) (s : State) : Outcome := branchIncrement 4 r ind a s

/-- BID (R300): bit position 28. -/
def execBid (r : Reg) (ind : Bool) (a : BitVec 20) (s : State) : Outcome := branchIncrement 8 r ind a s

end Sys2Proof.Machine
end

