-- ==== Sys2Proof/Machine/Compare.lean ====
section
/-! DEFINITION. Compare (45_compare.md R320 to R331). No register or memory is written. -/

namespace Sys2Proof.Machine

/-- The arithmetic compares with memory (R321 to R324): signed values, the byte zero extended. -/
def compareMembers (r : Reg) : Members where
  byte a s := (s.load8 a).finish fun b s1 => .next (s1.setCc (ccCompare (s1.reg r) (BitVec.zeroExtend 32 b)))
  half a s := (s.load16 a).finish fun h s1 => .next (s1.setCc (ccCompare (s1.reg r) (BitVec.signExtend 32 h)))
  word a s := (s.load32 a).finish fun w s1 => .next (s1.setCc (ccCompare (s1.reg r) w))
  double a s := (s.load64 a).finish fun v s1 => .next (s1.setCc (ccCompare (s1.regPair r) v))

/-- A masked compare: exclusive OR, AND with R4, test for zero (R320 (b)). -/
def State.maskedCompare (s : State) (a b : Word) : State := s.setCc (ccZero ((a ^^^ b) &&& s.reg 4))

/-- The masked compares with memory (R327 to R330). -/
def compareMaskedMembers (r : Reg) : Members where
  byte a s := (s.load8 a).finish fun b s1 => .next (s1.maskedCompare (s1.reg r) (BitVec.zeroExtend 32 b))
  half a s := (s.load16 a).finish fun h s1 => .next (s1.maskedCompare (s1.reg r) (BitVec.signExtend 32 h))
  word a s := (s.load32 a).finish fun w s1 => .next (s1.maskedCompare (s1.reg r) w)
  double a s := (s.load64 a).finish fun v s1 =>
    .next (s1.setCc (ccZero ((s1.regPair r ^^^ v) &&& (s1.reg 4 ++ s1.reg 4))))

def execCamb (r : Reg) (m : MemRef 19) (s : State) : Outcome := withOperand m.ofByte.word (compareMembers r) s
def execCamh (r : Reg) (m : MemRef 18) (s : State) : Outcome := withOperand m.ofHalf.word (compareMembers r) s
def execCamw (r : Reg) (m : MemRef 17) (s : State) : Outcome := withOperand m.ofWord.word (compareMembers r) s
def execCamd (r : Reg) (m : MemRef 17) (s : State) : Outcome := withOperand m.ofDouble.word (compareMembers r) s

/-- CAR (R325): Rd against Rs. -/
def execCar (sr d : Reg) (s : State) : Outcome := .next (s.setCc (ccCompare (s.reg d) (s.reg sr)))

/-- CI (R326). -/
def execCi (r : Reg) (v : Half) (s : State) : Outcome :=
  .next (s.setCc (ccCompare (s.reg r) (BitVec.signExtend 32 v)))

def execCmmb (r : Reg) (m : MemRef 19) (s : State) : Outcome := withOperand m.ofByte.word (compareMaskedMembers r) s
def execCmmh (r : Reg) (m : MemRef 18) (s : State) : Outcome := withOperand m.ofHalf.word (compareMaskedMembers r) s
def execCmmw (r : Reg) (m : MemRef 17) (s : State) : Outcome := withOperand m.ofWord.word (compareMaskedMembers r) s
def execCmmd (r : Reg) (m : MemRef 17) (s : State) : Outcome :=
  withOperand m.ofDouble.word (compareMaskedMembers r) s

/-- CMR (R331). -/
def execCmr (sr d : Reg) (s : State) : Outcome := .next (s.maskedCompare (s.reg d) (s.reg sr))

end Sys2Proof.Machine
end

