-- ==== Sys2Proof/Machine/Control.lean ====
section
/-! DEFINITION. Control (51_control.md R500 to R530), the Execute instructions apart. -/

namespace Sys2Proof.Machine

/-- What follows a PSD load by an instruction: a memory error in the map walk is a Machine Check (60_exceptions.md R632), a map
overflow a Map Fault (R645). `raise` lights PARITY ERROR. -/
def finishSwitch (k : State → State) : Switch → Outcome
  | .done s => .next (k s)
  | .memory e s => raise (.machineCheck (.memory e)) s
  | .overflow s => raise (.mapFault true) s

/-- The PSD at a logical address, loaded (R502, R504). The word at the lower address is read first, as the rule
writes it. -/
def loadPsdAt (full : Bool) (a : Addr) (k : State → State) (s : State) : Outcome :=
  (s.load32 a).finish fun n1 s1 =>
    (s1.load32 (s1.nextWord a)).finish fun n2 s2 => finishSwitch k ((s2.noteWalk full n2).loadPsd full n1 n2)

/-- "resets the highest active interrupt level": the numerically lowest (R501, D12). -/
def State.resetHighest (s : State) : State :=
  match s.lowestActive 128 0 with
  | some l => s.setActive l false
  | none => s

/-- A memory error on BRI's PSW fetch: the trap halt of 60_exceptions.md R671 at the vector of the level being reset; with no
active level the ordinary trap (log 22). -/
def briPswError (t : Trap) (s : State) : Outcome :=
  match s.lowestActive 128 0 with
  | some l => .next (((s.abandon t).orStatus (t.statusBits .psw)).trapHalt (levelVector l))
  | none => raise t s

/-- BRI's PSW, loaded from a logical address (R501). -/
def briPsw (a : Addr) (s : State) : Outcome :=
  match s.load32 a with
  | .ok w s1 => .next (s1.setPsw w).resetHighest
  | .trap t s1 => briPswError t s1
  | .stuck f => .fault f

/-- BRI indirect: one level, pre-indexed (R501, D12). -/
def briIndirect (a : Addr) (s : State) : Outcome :=
  match s.mode with
  | .psw => briPsw a s
  | .psd => loadPsdAt true a State.resetHighest s

/-- BRI (R501). -/
def execBri (m : MemRef 20) (s : State) : Outcome :=
  cpuOnly s (privileged s (
    if m.ind then briIndirect (indirectAddr (s.addressLevel m.word).ea) s
    else .next (s.jump (s.addressLevel m.word).ea).resetHighest))

/-- LPSD (R502): the map contents are never changed. -/
def execLpsd (m : MemRef 20) (s : State) : Outcome :=
  psdOnly s (privileged s ((s.effective m.word).finish fun e s1 => loadPsdAt false (doubleAddr e.ea) id s1))

/-- LPSDCM (R504). -/
def execLpsdcm (m : MemRef 20) (s : State) : Outcome :=
  psdOnly s (privileged s ((s.effective m.word).finish fun e s1 => loadPsdAt true (doubleAddr e.ea) id s1))

/-- LCS (R503). -/
def execLcs (d : Reg) (s : State) : Outcome :=
  .next ((s.setReg d (s.csw ++ 0#16)).setCc (ccOf false (s.csw ++ 0#16)))

/-- HALT (R509). -/
def execHalt (s : State) : Outcome := privileged s (.next { s with runState := .halt })

/-- WAIT's own action: the processor idles with the pc at the instruction itself, so that an interrupt returns to it
(R510, D14; log 17). -/
def enterWait (s : State) : State := { s with runState := .wait, pc := s.instrPc }

/-- WAIT (R510): blocked on a CPU in PSD mode, the Block Mode Timeout is pending at once (60_exceptions.md R662). -/
def execWait (s : State) : Outcome :=
  match s.cfg.role with
  | .ipu => privileged s (.next (enterWait s))
  | .cpu =>
    if s.mode = .psd ∧ s.blocked = true then .next { s with pendingTimeout := true } else .next (enterWait s)

/-- NOP (R511). -/
def execNop (s : State) : Outcome := .next s

/-- SIPU (R512): the start signal on a CPU, the Stop IPU trap on an IPU (60_exceptions.md R684). -/
def execSipu (s : State) : Outcome :=
  match s.cfg.role with
  | .cpu => .next { s with ipuStartPending := s.ipuStartPending || s.cfg.ipuPresent }
  | .ipu => ipuTrap 0x2F4 s

/-- CALM (R513): a request of level X'27' on a CPU, the Call Monitor trap on an IPU. The flags stay in memory for the
handler. -/
def execCalm (_flags : BitVec 10) (s : State) : Outcome :=
  match s.cfg.role with
  | .cpu => .next (s.setRequesting 0x27 true)
  | .ipu => ipuTrap 0x2F0 s

/-- SVC (R514): the condition code is cleared before the PSD is stored (D16). -/
def execSvc (ix : BitVec 4) (call : BitVec 12) (s : State) : Outcome := psdOnly s (svcTrap ix call (s.setCc 0))

/-- The mode SETCPU selects; an IPU is always in PSD mode (R521, 10_state.md R31). -/
def State.modeFor (s : State) (psd : Bool) : Mode :=
  match s.cfg.role with
  | .ipu => .psd
  | .cpu => if psd then .psd else .psw

/-- The effect of SETCPU with operand `v` (R521); mapping ends with PSD mode (10_state.md R43). -/
def State.setCpuMode (s : State) (v : Word) : State :=
  { s with
    bmtoEnabled := v.getLsbD 17
    trapsEnabled := v.getLsbD 16
    mode := s.modeFor (v.getLsbD 12)
    mapped := s.mapped && decide (s.modeFor (v.getLsbD 12) = .psd) }

/-- SETCPU (R521). -/
def execSetcpu (sr : Reg) (s : State) : Outcome :=
  privileged s (
    if (s.reg sr).getLsbD 12 && !s.cfg.psdJumper then raise .undefined s
    else .next (s.setCpuMode (s.reg sr)))

/-- RDSTS's condition code (R525, D18). -/
def statusCc (s : State) : BitVec 4 :=
  ccBits false (decide (s.mode = .psd)) s.blocked (decide (s.statusWord.extractLsb' 8 24 = 0))

/-- RDSTS (R525): the jumper is tested before the privilege. -/
def execRdsts (d : Reg) (s : State) : Outcome :=
  if s.cfg.psdJumper then privileged s (.next (((s.setReg d s.statusWord).setCc (statusCc s)).clearStatus))
  else raise .undefined s

/-- EAE (R526). -/
def execEae (s : State) : Outcome := psdOnly s (privileged s (.next { s with aexp := true }))

/-- DAE (R527). -/
def execDae (s : State) : Outcome := psdOnly s (privileged s (.next { s with aexp := false }))

end Sys2Proof.Machine
end

