-- ==== Sys2Proof/Machine/FixedPoint.lean ====
section
/-! DEFINITION. Fixed-Point Arithmetic (49_fixed_point.md R420 to R453). -/

namespace Sys2Proof.Machine

/-- `R[r] <- R[r] + b`, with overflow and the sign of the sum (R422). -/
def addTo (r : Reg) (b : Word) (s : State) : State :=
  (s.setReg r (s.reg r + b)).setArith (addOverflow (s.reg r) b) (s.reg r + b)

/-- `R[r] <- R[r] - b` (R433). -/
def subFrom (r : Reg) (b : Word) (s : State) : State :=
  (s.setReg r (s.reg r - b)).setArith (subOverflow (s.reg r) b) (s.reg r - b)

/-- The doubleword sum (R425). -/
def addToPair (r : Reg) (b : Double) (s : State) : State :=
  (s.setRegPair r (s.regPair r + b)).setArith (addOverflow (s.regPair r) b) (s.regPair r + b)

/-- The doubleword difference (R436). -/
def subFromPair (r : Reg) (b : Double) (s : State) : State :=
  (s.setRegPair r (s.regPair r - b)).setArith (subOverflow (s.regPair r) b) (s.regPair r - b)

/-- The operand of the byte, halfword and word forms as a word: byte zero extended, halfword sign extended (R420).
-/
def wordMembers (k : Word → State → State) : Members where
  byte a s := (s.load8 a).finish fun b s1 => .next (k (BitVec.zeroExtend 32 b) s1)
  half a s := (s.load16 a).finish fun h s1 => .next (k (BitVec.signExtend 32 h) s1)
  word a s := (s.load32 a).finish fun w s1 => .next (k w s1)
  double := noMember

/-- The add family (R422 to R425). -/
def addMembers (r : Reg) : Members :=
  { wordMembers (addTo r) with double := fun a s => (s.load64 a).finish fun v s1 => .next (addToPair r v s1) }

/-- The subtract family (R433 to R436). -/
def subMembers (r : Reg) : Members :=
  { wordMembers (subFrom r) with double := fun a s => (s.load64 a).finish fun v s1 => .next (subFromPair r v s1) }

/-- CC1 to CC3 are undefined, CC4 tells zero (R428, R429): three free bits (log 8). -/
def State.setFreeCc (s : State) (zero : Bool) : State :=
  { s with cc := Config.freeCc s.freeIx ++ BitVec.ofBool zero, freeIx := s.freeIx + 1 }

/-- ARMB (R428): the low byte of the 32-bit sum is stored. -/
def addRegToByte (r : Reg) (a : Addr) (s : State) : Outcome :=
  (s.modify8 a (fun b => (s.reg r + BitVec.zeroExtend 32 b).extractLsb' 0 8)).finish fun b s1 =>
    .next (s1.setFreeCc (decide (s1.reg r + BitVec.zeroExtend 32 b = 0)))

/-- The halfword read, and what `f` makes of it written back, as one action (R429). -/
def State.modify16 (s : State) (a : Addr) (f : Half → Half) : Res Half :=
  withLock (fun s0 => (s0.load16 a).bind fun h s1 => (s1.store16 a (f h)).bind fun _ s2 => .ok h s2) s

/-- ARMH (R429). -/
def addRegToHalf (r : Reg) (a : Addr) (s : State) : Outcome :=
  (s.modify16 a (fun h => (s.reg r).extractLsb' 0 16 + h)).finish fun h s1 =>
    .next (s1.setFreeCc (decide ((s1.reg r).extractLsb' 0 16 + h = 0)))

/-- ARMW (R430). -/
def addRegToWord (r : Reg) (a : Addr) (s : State) : Outcome :=
  (s.modify32 a (fun w => s.reg r + w)).finish fun w s1 =>
    .next (s1.setArith (addOverflow (s1.reg r) w) (s1.reg r + w))

/-- The doubleword read and its replacement written, the low-order word first each time (R431). Each word's read and
write are one action, but the two words are two: what bus agents write between them falls after the low-order word's
write and before the other word's read. The writes are applied before that read and once more after the low-order
word's write, for which those to that word waited (20_memory.md R120; log 26). -/
def State.modify64 (s : State) (a : Addr) (f : Double → Double) : Res Double :=
  withLock (fun s0 => (s0.load32 (a + 4)).bind fun lo s1 =>
    (s1.relock.load32 a).bind fun hi s2 =>
      (s2.store32 (a + 4) ((f (hi ++ lo)).extractLsb' 0 32)).bind fun _ s3 =>
        ((s3.busWrites (s1.bus.headD [])).store32 a ((f (hi ++ lo)).extractLsb' 32 32)).bind fun _ s4 =>
          .ok (hi ++ lo) s4) s

/-- ARMD (R431). -/
def addRegToDouble (r : Reg) (a : Addr) (s : State) : Outcome :=
  (s.modify64 a (fun v => s.regPair r + v)).finish fun v s1 =>
    .next (s1.setArith (addOverflow (s1.regPair r) v) (s1.regPair r + v))

/-- The add-register-to-memory family (R428 to R431). -/
def addRegMembers (r : Reg) : Members where
  byte := addRegToByte r
  half := addRegToHalf r
  word := addRegToWord r
  double := addRegToDouble r

/-- The 64-bit signed product of `R[r+1]` and `m` (R440). -/
def State.product (s : State) (r : Reg) (m : Word) : Double :=
  BitVec.signExtend 64 (s.reg (oddReg r)) * BitVec.signExtend 64 m

/-- `multiply(r, m)` (R440): no arithmetic exception is possible. -/
def multiplyBy (r : Reg) (m : Word) (s : State) : State :=
  (s.setRegPair r (s.product r m)).setCc (ccOf false (s.product r m))

/-- The quotient, truncated toward zero (R446). -/
def State.quotient (s : State) (r : Reg) (m : Word) : Int := (s.regPair r).toInt.tdiv m.toInt

/-- The remainder, with the sign of the dividend (R446). -/
def State.remainder (s : State) (r : Reg) (m : Word) : Int := (s.regPair r).toInt.tmod m.toInt

/-- The divide exception: a zero divisor or a quotient that exceeds 32 bits (R446, D29). -/
def State.divideException (s : State) (r : Reg) (m : Word) : Bool :=
  decide (m = 0) || decide (s.quotient r m < -2147483648) || decide (2147483647 < s.quotient r m)

/-- `divide(r, m)` (R446): on the exception the registers keep the dividend and the condition code shows R+1. -/
def divideBy (r : Reg) (m : Word) (s : State) : State :=
  if s.divideException r m then s.setArith true (s.reg (oddReg r))
  else
    ((s.setReg (oddReg r) (BitVec.ofInt 32 (s.quotient r m))).setReg (evenReg r)
      (BitVec.ofInt 32 (s.remainder r m))).setCc (ccOf false (BitVec.ofInt 32 (s.quotient r m)))

/-- `R[r] <- v` for a register form that is masked after the addition (R427, R438). -/
def maskedSum (d : Reg) (ae : Bool) (v : Word) (s : State) : State := (s.setReg d v).setArith ae v

def execAdmb (r : Reg) (m : MemRef 19) (s : State) : Outcome := withOperand m.ofByte.word (addMembers r) s
def execAdmh (r : Reg) (m : MemRef 18) (s : State) : Outcome := withOperand m.ofHalf.word (addMembers r) s
def execAdmw (r : Reg) (m : MemRef 17) (s : State) : Outcome := withOperand m.ofWord.word (addMembers r) s
def execAdmd (r : Reg) (m : MemRef 17) (s : State) : Outcome := withOperand m.ofDouble.word (addMembers r) s

/-- ADR (R426). -/
def execAdr (sr d : Reg) (s : State) : Outcome := .next (addTo d (s.reg sr) s)

/-- ADRM (R427): CC1 is the sum's overflow, CC2 to CC4 the masked word. -/
def execAdrm (sr d : Reg) (s : State) : Outcome :=
  .next (maskedSum d (addOverflow (s.reg d) (s.reg sr)) ((s.reg d + s.reg sr) &&& s.reg 4) s)

def execArmb (r : Reg) (m : MemRef 19) (s : State) : Outcome := withOperand m.ofByte.word (addRegMembers r) s
def execArmh (r : Reg) (m : MemRef 18) (s : State) : Outcome := withOperand m.ofHalf.word (addRegMembers r) s
def execArmw (r : Reg) (m : MemRef 17) (s : State) : Outcome := withOperand m.ofWord.word (addRegMembers r) s
def execArmd (r : Reg) (m : MemRef 17) (s : State) : Outcome := withOperand m.ofDouble.word (addRegMembers r) s

/-- ADI (R432). -/
def execAdi (r : Reg) (v : Half) (s : State) : Outcome := .next (addTo r (BitVec.signExtend 32 v) s)

def execSumb (r : Reg) (m : MemRef 19) (s : State) : Outcome := withOperand m.ofByte.word (subMembers r) s
def execSumh (r : Reg) (m : MemRef 18) (s : State) : Outcome := withOperand m.ofHalf.word (subMembers r) s
def execSumw (r : Reg) (m : MemRef 17) (s : State) : Outcome := withOperand m.ofWord.word (subMembers r) s
def execSumd (r : Reg) (m : MemRef 17) (s : State) : Outcome := withOperand m.ofDouble.word (subMembers r) s

/-- SUR (R437). -/
def execSur (sr d : Reg) (s : State) : Outcome := .next (subFrom d (s.reg sr) s)

/-- SURM (R438). -/
def execSurm (sr d : Reg) (s : State) : Outcome :=
  .next (maskedSum d (subOverflow (s.reg d) (s.reg sr)) ((s.reg d - s.reg sr) &&& s.reg 4) s)

/-- SUI (R439). -/
def execSui (r : Reg) (v : Half) (s : State) : Outcome := .next (subFrom r (BitVec.signExtend 32 v) s)

def execMpmb (r : Reg) (m : MemRef 19) (s : State) : Outcome :=
  withOperand m.ofByte.word (wordMembers (multiplyBy r)) s
def execMpmh (r : Reg) (m : MemRef 18) (s : State) : Outcome :=
  withOperand m.ofHalf.word (wordMembers (multiplyBy r)) s

/-- MPMW (R443): the doubleword combination names no instruction. -/
def execMpmw (r : Reg) (m : MemRef 18) (s : State) : Outcome :=
  withOperand m.ofWide.word (wordMembers (multiplyBy r)) s

/-- MPR (R444). -/
def execMpr (sr d : Reg) (s : State) : Outcome := .next (multiplyBy d (s.reg sr) s)

/-- MPI (R445). -/
def execMpi (r : Reg) (v : Half) (s : State) : Outcome := .next (multiplyBy r (BitVec.signExtend 32 v) s)

def execDvmb (r : Reg) (m : MemRef 19) (s : State) : Outcome :=
  withOperand m.ofByte.word (wordMembers (divideBy r)) s
def execDvmh (r : Reg) (m : MemRef 18) (s : State) : Outcome :=
  withOperand m.ofHalf.word (wordMembers (divideBy r)) s

/-- DVMW (R449): the doubleword combination names no instruction. -/
def execDvmw (r : Reg) (m : MemRef 18) (s : State) : Outcome :=
  withOperand m.ofWide.word (wordMembers (divideBy r)) s

/-- DVR (R450): the divisor is read first. -/
def execDvr (sr d : Reg) (s : State) : Outcome := .next (divideBy d (s.reg sr) s)

/-- DVI (R451). -/
def execDvi (r : Reg) (v : Half) (s : State) : Outcome := .next (divideBy r (BitVec.signExtend 32 v) s)

/-- ES (R452; log 31): the sign of the next register, modulo 8, fills the register. -/
def execEs (d : Reg) (s : State) : Outcome :=
  let v : Word := if (s.reg (d + 1)).getLsbD 31 then 0xFFFFFFFF else 0
  .next ((s.setReg d v).setCc (ccOf false (v ++ s.reg (d + 1))))

/-- RND (R453). -/
def execRnd (d : Reg) (s : State) : Outcome :=
  .next (addTo d (if (s.reg (d + 1)).getLsbD 31 then 1 else 0) s)

end Sys2Proof.Machine
end

