-- ==== Sys2Proof/Machine/FloatingPoint.lean ====
section
/-! DEFINITION. Floating Point (50_floating_point.md R480 to R493). What the manual fixes of a result is computed;
what it leaves open is a free value of Config (log 9). -/

namespace Sys2Proof.Machine

/-- The whole number without its sign: a negative number is the two's complement of the positive one (R481). -/
def fpMagnitude {n : Nat} (x : BitVec n) : Nat := if x.msb then 2 ^ n - x.toNat else x.toNat

/-- The biased exponent, bits 1-7 of the magnitude. -/
def fpExponent {n : Nat} (x : BitVec n) : Nat := fpMagnitude x / 2 ^ (n - 8)

/-- The fraction, bits 8 to n-1 of the magnitude, as a whole number of hexadecimal digits. -/
def fpFraction {n : Nat} (x : BitVec n) : Nat := fpMagnitude x % 2 ^ (n - 8)

/-- Hexadecimal digits of the fraction: 6 in a word, 14 in a doubleword (R481). -/
def fpDigits (n : Nat) : Nat := (n - 8) / 4

/-- Normalized: a most significant fraction digit that is not zero (R482). That zero, which lies outside R482's
intervals, is an operand like a normalized one is DESIGN CHOICE (log 9). -/
def fpNormalized {n : Nat} (x : BitVec n) : Bool := decide (x = 0) || decide (2 ^ (n - 12) ≤ fpFraction x)

/-- The number with a sign, a biased exponent and a fraction. -/
def fpPack (n : Nat) (neg : Bool) (e q : Nat) : BitVec n :=
  if neg then 0 - BitVec.ofNat n (e * 2 ^ (n - 8) + q) else BitVec.ofNat n (e * 2 ^ (n - 8) + q)

/-- A result before rounding that is not zero: sign, fraction `num / den` with 1/16 <= fraction < 1, biased
exponent. -/
structure FpExact where
  neg : Bool
  num : Nat
  den : Nat
  exp : Int
  deriving DecidableEq, Repr

/-- The fraction's digits, the rest cut off. -/
def FpExact.digits (x : FpExact) (n : Nat) : Nat := x.num * 2 ^ (n - 8) / x.den

/-- Whether the digits are the whole fraction. -/
def FpExact.exact (x : FpExact) (n : Nat) : Bool := decide (x.num * 2 ^ (n - 8) % x.den = 0)

/-- The top bit of the guard digit, the digit after the last of the fraction (R484 (3)). -/
def FpExact.guard (x : FpExact) (n : Nat) : Bool := decide (x.num * 2 ^ (n - 8) * 2 / x.den % 2 = 1)

/-- Whether the fraction is rounded up in magnitude: a word "on its top bit" of the guard digit, a doubleword as a
free value says (R484 (3); log 9). -/
def fpRoundsUp (n : Nat) (op : FpOp) (a b : BitVec n) (x : FpExact) : Bool :=
  if n = 32 then x.guard n else !x.exact n && Config.fpRoundUp n op a b

/-- The fraction and exponent after rounding; a carry out of the fraction moves one digit to the exponent (R482). -/
def fpRound (n : Nat) (op : FpOp) (a b : BitVec n) (x : FpExact) : Nat × Int :=
  let q := x.digits n + (fpRoundsUp n op a b x).toNat
  if q = 2 ^ (n - 8) then (2 ^ (n - 12), x.exp + 1) else (q, x.exp)

/-- Exponent overflow and underflow: the result's exponent is above 127 or below 0, biased (R483). -/
def fpException (e : Int) : FpExc := if 127 < e then .overflow else if e < 0 then .underflow else .none

/-- `sign` of R484. -/
def fpSign (neg : Bool) : FpSign := if neg then .negative else .positive

/-- The answer for a result that is not zero: with an exception the register content is a free value (R484 (6)). -/
def fpDeliver (n : Nat) (op : FpOp) (a b : BitVec n) (x : FpExact) : FpResult n :=
  match fpException (fpRound n op a b x).2 with
  | .none => ⟨fpPack n x.neg (fpRound n op a b x).2.toNat (fpRound n op a b x).1, .none, fpSign x.neg⟩
  | exc => ⟨Config.fpOnException n op a b, exc, fpSign x.neg⟩

/-- A zero result: "the exponent and fraction are set to zero" (R484 (1)). -/
def fpZero (n : Nat) : FpResult n := ⟨0, .none, .zero⟩

/-- Hexadecimal digits of a number that is not zero. -/
def hexLength (v : Nat) : Nat := Nat.log2 v / 4 + 1

/-- The signed fraction as an integer. -/
def fpSigned {n : Nat} (x : BitVec n) : Int := if x.msb then - (fpFraction x : Int) else fpFraction x

/-- The sum of two fractions aligned to the smaller exponent `m`. -/
def fpSum (n : Nat) (op : FpOp) (a b : BitVec n) (m : Nat) (v : Int) : FpResult n :=
  if v = 0 then fpZero n
  else fpDeliver n op a b
    ⟨decide (v < 0), v.natAbs, 16 ^ hexLength v.natAbs, (m : Int) - fpDigits n + hexLength v.natAbs⟩

/-- The larger operand as the result, negated when it is the subtrahend (R484 (4)). -/
def fpLarger {n : Nat} (v : BitVec n) : FpResult n := ⟨v, .none, if v = 0 then .zero else fpSign v.msb⟩

/-- The largest exponent difference for which ADD and SUB align: 6 for a word, 13 for a doubleword (R484 (4)). -/
def fpLimit (n : Nat) : Nat := if n = 32 then 6 else 13

/-- Digits a computation carries after the last digit of the fraction: the guard digit of a word (R484 (3)). -/
def fpGuardDigits (n : Nat) : Nat := if n = 32 then 1 else 0

/-- A fraction after a right shift of `k` digits, in units of its digit before the shift: the last `k` digits but
the guard digit are shifted out, and where one of them is not zero the free value says what becomes of them (R484
(3), R486; log 9). -/
def fpAlign (n : Nat) (out : ShiftedOut) (k : Nat) (f : Int) : Int :=
  let unit : Int := 16 ^ (k - fpGuardDigits n)
  if f.tmod unit = 0 then f
  else
    match out with
    | .kept => f
    | .dropped => f.tdiv unit * unit
    | .carried => (f.tdiv unit + f.sign) * unit

/-- ADD and SUB of normalized operands; `neg` negates `b` (R486, R488). -/
def fpAdd (n : Nat) (op : FpOp) (neg : Bool) (a b : BitVec n) : FpResult n :=
  let ea := fpExponent a
  let eb := fpExponent b
  let sb : Int := if neg then - fpSigned b else fpSigned b
  let out := Config.fpShiftedOut n op a b
  if fpLimit n < ea - eb then fpLarger a
  else if fpLimit n < eb - ea then fpLarger (if neg then 0 - b else b)
  else if ea ≤ eb then fpSum n op a b ea (fpAlign n out (eb - ea) (fpSigned a) + sb * 16 ^ (eb - ea))
  else fpSum n op a b eb (fpSigned a * 16 ^ (ea - eb) + fpAlign n out (ea - eb) sb)

/-- MUL of normalized operands (R490). -/
def fpMul (n : Nat) (a b : BitVec n) : FpResult n :=
  if a = 0 ∨ b = 0 then fpZero n
  else
    let p := fpFraction a * fpFraction b
    let e : Int := (fpExponent a : Int) + fpExponent b - 64
    let short := decide (p < 16 ^ (2 * fpDigits n - 1))
    fpDeliver n .mul a b
      ⟨a.msb != b.msb, p, if short then 16 ^ (2 * fpDigits n - 1) else 16 ^ (2 * fpDigits n), if short then e - 1 else e⟩

/-- DIV of normalized operands, the divisor not zero (R492). -/
def fpDiv (n : Nat) (a b : BitVec n) : FpResult n :=
  if a = 0 then fpZero n
  else
    let e : Int := (fpExponent a : Int) - fpExponent b + 64
    let short := decide (fpFraction a < fpFraction b)
    fpDeliver n .div a b
      ⟨a.msb != b.msb, fpFraction a, if short then fpFraction b else 16 * fpFraction b, if short then e else e + 1⟩

/-- The sign of a number by `R(0,8-31)` (R483). -/
def fpSignOf {n : Nat} (v : BitVec n) : FpSign :=
  if v.msb then .negative else if v.toNat % 2 ^ (n - 8) = 0 then .zero else .positive

/-- An open answer: result and exception are free, the sign is the result's, and with an exception positive or
negative, so that the condition code is a row of R483's table (U16: "CC is defined by" R483; log 9). -/
def fpOpen {n : Nat} (x : FpResult n) : FpResult n :=
  { x with sign := if x.exc = .none then fpSignOf x.result else fpSign (decide (x.sign = .negative)) }

/-- FP_ARITH (R484): an operand that is not normalized and a zero divisor leave the result open. -/
def fpArith (n : Nat) (op : FpOp) (a b : BitVec n) : FpResult n :=
  if !fpNormalized a || !fpNormalized b then fpOpen (Config.fpFree n op a b)
  else
    match op with
    | .add => fpAdd n .add false a b
    | .sub => fpAdd n .sub true a b
    | .mul => fpMul n a b
    | .div => if b = 0 then fpOpen (Config.fpFree n .div a b) else fpDiv n a b

/-- The condition code of a floating-point answer (R483, R485). -/
def fpCc {n : Nat} (x : FpResult n) : BitVec 4 :=
  ccBits (decide (x.exc ≠ .none)) (decide (x.sign = .positive)) (decide (x.sign = .negative))
    ((decide (x.exc = .none) && decide (x.sign = .zero)) || decide (x.exc = .overflow))

/-- The end of `fp_exec`: condition code, then the arithmetic exception (R485). -/
def State.setFp {n : Nat} (s : State) (x : FpResult n) : State :=
  (s.setCc (fpCc x)).arithException (decide (x.exc ≠ .none))

/-- `fp_exec(op, 32, r)` at a word address (R485). -/
def fpWord (op : FpOp) (r : Reg) (a : Addr) (s : State) : Outcome :=
  (s.load32 a).finish fun b s1 =>
    .next ((s1.setReg r (fpArith 32 op (s1.reg r) b).result).setFp (fpArith 32 op (s1.reg r) b))

/-- `fp_exec(op, 64, r)` at a doubleword address (R485, R480 "least significant word first"). -/
def fpDouble (op : FpOp) (r : Reg) (a : Addr) (s : State) : Outcome :=
  (s.load64 a).finish fun b s1 =>
    .next ((s1.setRegPair r (fpArith 64 op (s1.regPair r) b).result).setFp (fpArith 64 op (s1.regPair r) b))

/-- The operand length by the C bits of the effective address: 00 word, 10 doubleword, else unassigned (R480, D30).
-/
def fpExec (op : FpOp) (r : Reg) (w : Word) (s : State) : Outcome :=
  (s.effective w).finish fun e s1 =>
    if e.ea.extractLsb' 0 2 = 0b00#2 then fpWord op r (wordAddr e.ea) s1
    else if e.ea.extractLsb' 0 2 = 0b10#2 then fpDouble op r (doubleAddr e.ea) s1
    else raise .undefined s1

/-- ADFW (R486). -/
def execAdfw (r : Reg) (m : MemRef 19) (s : State) : Outcome := fpExec .add r (m.ofFixed true).word s

/-- ADFD (R487). -/
def execAdfd (r : Reg) (m : MemRef 17) (s : State) : Outcome := fpExec .add r (m.ofFixedDouble true).word s

/-- SUFW (R488). -/
def execSufw (r : Reg) (m : MemRef 19) (s : State) : Outcome := fpExec .sub r (m.ofFixed false).word s

/-- SUFD (R489). -/
def execSufd (r : Reg) (m : MemRef 17) (s : State) : Outcome := fpExec .sub r (m.ofFixedDouble false).word s

/-- MPFW (R490). -/
def execMpfw (r : Reg) (m : MemRef 19) (s : State) : Outcome := fpExec .mul r (m.ofFixed true).word s

/-- MPFD (R491). -/
def execMpfd (r : Reg) (m : MemRef 17) (s : State) : Outcome := fpExec .mul r (m.ofFixedDouble true).word s

/-- DVFW (R492). -/
def execDvfw (r : Reg) (m : MemRef 19) (s : State) : Outcome := fpExec .div r (m.ofFixed false).word s

/-- DVFD (R493). -/
def execDvfd (r : Reg) (m : MemRef 17) (s : State) : Outcome := fpExec .div r (m.ofFixedDouble false).word s

end Sys2Proof.Machine
end

