-- ==== Sys2Proof/Machine/Interrupt.lean ====
section
/-! DEFINITION. Interrupt (52_interrupt.md R540 to R553), and the addressing and answer that its Class F
instructions share with those of Input/Output (53_input_output.md R573, R579, R590). -/

namespace Sys2Proof.Machine

/-- Whether a level instruction reaches its level: not X'02' to X'11', not a Class F channel's, configured (R540,
D31). -/
def State.levelReached (s : State) (l : Level) : Bool :=
  !(decide (0x02 ≤ l.toNat) && decide (l.toNat ≤ 0x11)) && (Config.classFLevel s.cfg l).isNone &&
    Config.levelConfigured s.cfg l

/-- `interrupt_control(level, action)` (R540), then what the instruction does whatever its level. -/
def interruptControl (l : Level) (action after : State → State) (s : State) : Outcome :=
  cpuOnly s (privileged s (.next (after (if s.levelReached l then action s else s))))

/-- Levels 0 and 1 with the jumper's constant enable: EI and DI change nothing (R541, R543). -/
def State.constantEnable (s : State) (l : Level) : Bool := decide (l.toNat < 2) && !s.cfg.rtomSoftwareEnable

/-- EI (R542). -/
def execEi (l : BitVec 7) (s : State) : Outcome :=
  interruptControl l (fun t => if t.constantEnable l then t else t.setEnabled l true) id s

/-- DI (R543): an unserviced request is cleared, the active state is not. -/
def execDi (l : BitVec 7) (s : State) : Outcome :=
  interruptControl l (fun t => if t.constantEnable l then t else (t.setEnabled l false).setRequesting l false) id s

/-- RI (R544). -/
def execRi (l : BitVec 7) (s : State) : Outcome := interruptControl l (fun t => t.setRequesting l true) id s

/-- AI (R545). -/
def execAi (l : BitVec 7) (s : State) : Outcome := interruptControl l (fun t => t.setActive l true) id s

/-- In PSD mode the next instruction is protected from interrupts (R546; 70_reset_and_hazards.md R722). -/
def State.protectNext (s : State) : State := { s with nonint := s.nonint || decide (s.mode = .psd) }

/-- DAI (R546): the pair is uninterruptible whether or not the level was reached. -/
def execDai (l : BitVec 7) (s : State) : Outcome :=
  interruptControl l (fun t => t.setActive l false) State.protectNext s

/-! ## Class F -/

/-- The sum that holds the channel and subaddress (53_input_output.md R573). -/
def State.classFSum (s : State) (r : Reg) (k : Half) : Word := (if r = 0 then 0 else s.reg r) + BitVec.zeroExtend 32 k

/-- The logical channel: bits 17-23 of the sum (R573). -/
def classFChannel (sum : Word) : BitVec 7 := sum.extractLsb' 8 7

/-- The subaddress: bits 25-31 (R573). -/
def classFSub (sum : Word) : BitVec 7 := sum.extractLsb' 0 7

/-- The condition code of an answer (R590). -/
def answerCc : ClassFAnswer → BitVec 4
  | .activated => 0b0000
  | .channelBusy => 0b0001
  | .inoperable => 0b0010
  | .subchannelBusy => 0b0011
  | .statusStored => 0b0100
  | .unsupported => 0b0101
  | .queued => 0b1000

/-- "accepted" (R590). -/
def answerAccepted (a : ClassFAnswer) : Bool := decide (a = .activated) || decide (a = .queued)

/-- A command handed to a channel (53_input_output.md R572; log 10). -/
def State.emit (s : State) (c : ChannelCommand) : State := { s with channelOut := s.channelOut ++ [c] }

/-- The WCS interlock is cleared by any instruction to the same controller (53_input_output.md R587). R587 says "any
other": that an ECWCS which the channel rejects clears it too is the model's choice (log 10). -/
def State.releaseInterlock (s : State) (ch : BitVec 7) : State :=
  { s with wcsInterlock := if s.wcsInterlock = some ch then none else s.wcsInterlock }

/-- The ordinary trap of a memory error on a channel's vector or context block (log 10). -/
def channelMemoryTrap (e : MemError) : Trap :=
  match e with
  | .nonpresent => .nonpresent false
  | .parity => .memoryParity false

/-- "When the answer is 0100 the channel has stored its two status words and the processor has stored their address
in word 6 of the channel's ICB" (R590, R594); the channel's request is then cleared (R581). The processor's own
accesses are compared with the address stops, the channel's are not (log 29). -/
def statusStored (ch : Channel) (s : State) : Outcome :=
  let s0 := s.transact
  match s0.realRead (levelVector ch.level) with
  | .error e => raise (channelMemoryTrap e) s0
  | .ok v =>
    let r := (s0.noteRead (levelVector ch.level)).takeChannelStatus ch.device
    let s1 := r.1.transact
    match s1.realWrite (vectorAddr v + 20) (BitVec.zeroExtend 32 r.2) with
    | .error e => raise (channelMemoryTrap e) s1
    | .ok s2 =>
      .next (((s2.noteWrite (vectorAddr v + 20)).setRequesting ch.level false).setCc (answerCc .statusStored))

/-- The IOCLA: word 5 of the channel's context block (R580, R591). -/
def State.iocla (s : State) (ch : Channel) : Res Addr :=
  let s0 := s.transact
  match s0.realRead (levelVector ch.level) with
  | .error e => .trap (channelMemoryTrap e) s0
  | .ok v =>
    let s1 := (s0.noteRead (levelVector ch.level)).transact
    match s1.realRead (vectorAddr v + 16) with
    | .error e => .trap (channelMemoryTrap e) s1
    | .ok w => .ok (vectorAddr w) (s1.noteRead (vectorAddr v + 16))

/-- What the processor does when an operation is accepted: the IOCLA is read first if the operation passes one, then
the command is with the channel, then the effect. -/
def classFAccepted (op : ClassFOp) (ch : Channel) (sub : BitVec 7) (list : Bool) (a : ClassFAnswer)
    (effect : State → State) (s : State) : Outcome :=
  if list then
    (s.iocla ch).finish fun p s1 => .next ((effect (s1.emit (.classF op ch.device sub (some p)))).setCc (answerCc a))
  else .next ((effect (s.emit (.classF op ch.device sub none))).setCc (answerCc a))

/-- The instructions on which a channel "may report status": SIO, TIO, HIO (53_input_output.md R594). -/
def reportsStatus : ClassFOp → Bool
  | .sio => true
  | .tio => true
  | .hio => true
  | _ => false

/-- The channel's answer, drawn from the assigned patterns (R572, R590). Status Stored answers SIO, TIO and HIO
alone, so that pending status is cleared by these alone (R549, R550, R594); another operation's draw of it is
Channel Busy (log 10). -/
def State.answer (s : State) (op : ClassFOp) (ch : Channel) (sub : BitVec 7) : ClassFAnswer :=
  let a := Config.classFAnswer s.freeIx ch.device sub op
  if a = .statusStored && !reportsStatus op then .channelBusy else a

/-- A Class F channel is addressed and answers. -/
def classFAddressed (op : ClassFOp) (ch : Channel) (sub : BitVec 7) (list : Bool) (effect : State → State)
    (s : State) : Outcome :=
  let s1 := { s.releaseInterlock ch.device with freeIx := s.freeIx + 1 }
  if answerAccepted (s.answer op ch sub) then classFAccepted op ch sub list (s.answer op ch sub) effect s1
  else if s.answer op ch sub = .statusStored then
    statusStored ch (s1.emit (.classF op ch.device sub none))
  else .next ((s1.emit (.classF op ch.device sub none)).setCc (answerCc (s.answer op ch sub)))

/-- The common sequence of the Class F instructions (53_input_output.md R579, 52_interrupt.md R547): the checks, the
class of the channel, then `known` with the channel and subaddress. -/
def classF (r : Reg) (k : Half) (s : State) (known : Channel → BitVec 7 → Outcome) (absent : State → State) : Outcome :=
  psdOnly s (cpuOnly s (privileged s (
    match Config.channel s.cfg (classFChannel (s.classFSum r k)) with
    | none => .next (absent (s.setCc (answerCc .inoperable)))
    | some ch => if ch.cls = .classF then known ch (classFSub (s.classFSum r k)) else raise .undefined s)))

/-- A Class F operation whose effect on the processor's state is `effect`, given the channel's level. -/
def channelOp (op : ClassFOp) (list : Bool) (effect : Channel → State → State) (r : Reg) (k : Half) (s : State) :
    Outcome :=
  classF r k s (fun ch sub => classFAddressed op ch sub list (effect ch) s) id

/-- ECI (R548). -/
def execEci (r : Reg) (k : Half) (s : State) : Outcome :=
  channelOp .eci false (fun ch t => t.setEnabled ch.level true) r k s

/-- DCI (R549): a queued request stays. -/
def execDci (r : Reg) (k : Half) (s : State) : Outcome :=
  channelOp .dci false (fun ch t => t.setEnabled ch.level false) r k s

/-- ACI (R550). -/
def execAci (r : Reg) (k : Half) (s : State) : Outcome :=
  channelOp .aci false (fun ch t => t.setActive ch.level true) r k s

/-- DACI (R551): the next instruction is protected whatever the answer. No answer to it makes the processor store a
status, so that it meets no memory error after `NONINT` is set (log 10). -/
def execDaci (r : Reg) (k : Half) (s : State) : Outcome :=
  classF r k s
    (fun ch sub => classFAddressed .daci ch sub false (fun t => t.setActive ch.level false) { s with nonint := true })
    (fun t => { t with nonint := true })

/-! ## Blocking -/

/-- BEI (R552): the count restarts only if interrupts were not blocked. -/
def execBei (s : State) : Outcome := psdOnly s (cpuOnly s (privileged s (.next (s.setBlocked true))))

/-- UEI (R553), the one interrupt instruction an IPU has. -/
def execUei (s : State) : Outcome := psdOnly s (privileged s (.next (s.setBlocked false)))

end Sys2Proof.Machine
end

