-- ==== Sys2Proof/Machine/InputOutput.lean ====
section
/-! DEFINITION. Input/Output (53_input_output.md R570 to R596). What a channel does is outside the processor: it gets
its command (`channelOut`) and gives its answer, a free value (log 10). -/

namespace Sys2Proof.Machine

/-- CD and TD to a Class F channel: a System Check in PSD mode (R575, R576). -/
def classFMisuse (s : State) (k : Outcome) : Outcome :=
  match s.mode with
  | .psd => raise (.systemCheck false) s
  | .psw => k

/-- CD to whatever the device address names (R575, D33). -/
def commandTo (n : BitVec 7) (f : Half) (s : State) : Outcome :=
  match Config.channel s.cfg n with
  | none => .next s
  | some ch => if ch.cls = .classF then classFMisuse s (.next s) else .next (s.emit (.commandDevice n f))

/-- CD (R575). -/
def execCd (n : BitVec 7) (f : Half) (s : State) : Outcome := cpuOnly s (privileged s (commandTo n f s))

/-- The condition code of a TD to a Class F channel in PSW mode (R576, D33). -/
def classFTestCc (f : Half) (cc : BitVec 4) : BitVec 4 :=
  if f.getLsbD 15 then 0b0010 else if f.getLsbD 14 then 0b0010 else if f.getLsbD 13 then 0b0100 else cc

/-- TD's test code: bits 28-31 are not decoded (R576). -/
def testCode (f : Half) : Half := f &&& 0xFFF0

/-- The device's test result, a free value (R576; log 10). -/
def testDevice (n : BitVec 7) (f : Half) (s : State) : Outcome :=
  .next (({ s with freeIx := s.freeIx + 1 }.emit (.testDevice n (testCode f))).setCc
    (Config.testResult s.freeIx n (testCode f)))

/-- TD to whatever the device address names (R576). -/
def testOf (n : BitVec 7) (f : Half) (s : State) : Outcome :=
  match Config.channel s.cfg n with
  | none => .next (s.setCc 0b0001)
  | some ch =>
    if ch.cls = .classF then classFMisuse s (.next (s.setCc (classFTestCc f s.cc))) else testDevice n f s

/-- TD (R576). -/
def execTd (n : BitVec 7) (f : Half) (s : State) : Outcome := cpuOnly s (privileged s (testOf n f s))

/-- SIO (R580). -/
def execSio (r : Reg) (k : Half) (s : State) : Outcome := channelOp .sio true (fun _ t => t) r k s

/-- TIO (R581). -/
def execTio (r : Reg) (k : Half) (s : State) : Outcome := channelOp .tio false (fun _ t => t) r k s

/-- STPIO (R582). -/
def execStpio (r : Reg) (k : Half) (s : State) : Outcome := channelOp .stpio false (fun _ t => t) r k s

/-- RSCHNL (R583): "Any requesting or active interrupt level will be reset". -/
def execRschnl (r : Reg) (k : Half) (s : State) : Outcome :=
  channelOp .rschnl false (fun ch t => (t.setRequesting ch.level false).setActive ch.level false) r k s

/-- HIO (R584). -/
def execHio (r : Reg) (k : Half) (s : State) : Outcome := channelOp .hio false (fun _ t => t) r k s

/-- GRIO (R585). -/
def execGrio (r : Reg) (k : Half) (s : State) : Outcome := channelOp .grio false (fun _ t => t) r k s

/-- RSCTL (R586). -/
def execRsctl (r : Reg) (k : Half) (s : State) : Outcome := channelOp .rsctl false (fun _ t => t) r k s

/-- ECWCS (R587): accepted, it sets the interlock. -/
def execEcwcs (r : Reg) (k : Half) (s : State) : Outcome :=
  channelOp .ecwcs false (fun ch t => { t with wcsInterlock := some ch.device }) r k s

/-- WCWCS (R588): without ECWCS just before it, a System Check; the interlock is used up. -/
def execWcwcs (r : Reg) (k : Half) (s : State) : Outcome :=
  classF r k s
    (fun ch sub =>
      if s.wcsInterlock = some ch.device then
        classFAddressed .wcwcs ch sub true (fun t => t) { s with wcsInterlock := none }
      else raise (.systemCheck false) s)
    id

end Sys2Proof.Machine
end

