-- ==== Sys2Proof/Decode.lean ====
section
/-! DEFINITION. Decoding and encoding (30_encoding.md R140 to R160). A halfword or word is cut into its fields once;
the decoder and the encoder then work on fields. -/

namespace Sys2Proof

/-- The fields of a halfword instruction (R143), in the manual's order: bits 0-5, 6-8 (RD), 9-11 (RS), 12-15. -/
structure HalfFields where
  op  : BitVec 6
  d   : Reg
  s   : Reg
  aug : BitVec 4
  deriving DecidableEq, Repr

/-- The fields of a word instruction (R141): bits 0-5, 6-8, 9-10, 11, 12, 13-29, 30-31. -/
structure WordFields where
  op   : BitVec 6
  r    : Reg
  x    : BitVec 2
  ind  : Bool
  fbit : Bool
  addr : BitVec 17
  c    : BitVec 2
  deriving DecidableEq, Repr

/-- The fields of either length. -/
inductive Fields where
  | half (f : HalfFields)
  | word (f : WordFields)
  deriving DecidableEq, Repr

/-- An instruction as it stands in memory: 16 or 32 bits (R140). -/
inductive Code where
  | half (h : Half)
  | word (w : Word)
  deriving DecidableEq, Repr

def HalfFields.ofHalf (h : Half) : HalfFields :=
  ⟨h.extractLsb' 10 6, h.extractLsb' 7 3, h.extractLsb' 4 3, h.extractLsb' 0 4⟩

def HalfFields.toHalf (f : HalfFields) : Half := f.op ++ f.d ++ f.s ++ f.aug

def WordFields.ofWord (w : Word) : WordFields :=
  ⟨w.extractLsb' 26 6, w.extractLsb' 23 3, w.extractLsb' 21 2, w.getLsbD 20, w.getLsbD 19,
    w.extractLsb' 2 17, w.extractLsb' 0 2⟩

def WordFields.toWord (f : WordFields) : Word :=
  f.op ++ f.r ++ f.x ++ BitVec.ofBool f.ind ++ BitVec.ofBool f.fbit ++ f.addr ++ f.c

def Fields.toCode : Fields → Code
  | .half f => .half f.toHalf
  | .word f => .word f.toWord

/-- Bit 9 of the shift format: 1 is left (R145). -/
def HalfFields.shiftLeft (f : HalfFields) : Bool := f.s.getLsbD 2

/-- Bits 11-15 of the shift format; bit 10 is ignored (R145). -/
def HalfFields.shiftCount (f : HalfFields) : BitVec 5 := f.s.extractLsb' 0 1 ++ f.aug

/-- The members of op code 000000 without operands are matched on all sixteen bits (R151). -/
def HalfFields.noOperand (f : HalfFields) (i : Instr) : Option Instr :=
  if f.d = 0 ∧ f.s = 0 then some i else none

/-- Bits 13-15, the augmenting code of the immediate and interrupt formats (R142, R145). -/
def WordFields.aug (f : WordFields) : BitVec 3 := f.addr.extractLsb' 14 3

/-- Bits 16-31 (R142). -/
def WordFields.imm (f : WordFields) : Half := f.addr.extractLsb' 0 14 ++ f.c

/-- Bits 9-12. -/
def WordFields.upper4 (f : WordFields) : BitVec 4 := f.x ++ BitVec.ofBool f.ind ++ BitVec.ofBool f.fbit

/-- Bits 6-12, a priority level or device address (R145). -/
def WordFields.upper7 (f : WordFields) : BitVec 7 := f.r ++ f.upper4

def WordFields.fullRef (f : WordFields) : MemRef 20 := ⟨f.x, f.ind, BitVec.ofBool f.fbit ++ f.addr ++ f.c⟩

def WordFields.byteRef (f : WordFields) : MemRef 19 := ⟨f.x, f.ind, f.addr ++ f.c⟩

def WordFields.halfRef (f : WordFields) : MemRef 18 := ⟨f.x, f.ind, f.addr ++ f.c.extractLsb' 1 1⟩

def WordFields.wordRef (f : WordFields) : MemRef 17 := ⟨f.x, f.ind, f.addr⟩

/-- The member of a byte, halfword, word, doubleword family by the static F and C bits (20_memory.md R91). -/
def WordFields.typed (f : WordFields) (b : MemRef 19 → Instr) (h : MemRef 18 → Instr)
    (w d : MemRef 17 → Instr) : Instr :=
  if f.fbit then b f.byteRef
  else if f.c.getLsbD 0 then h f.halfRef
  else if f.c.getLsbD 1 then d f.wordRef
  else w f.wordRef

/-- The same for a family without a doubleword member (MPMx, DVMx): bit 30 stays in the word member's address,
for indexing may still change the operand type (R148; log 25). -/
def WordFields.typedWide (f : WordFields) (b : MemRef 19 → Instr) (h w : MemRef 18 → Instr) : Instr :=
  if f.fbit then b f.byteRef
  else if f.c.getLsbD 0 then h f.halfRef
  else w f.halfRef

/-- The member of a floating-point pair: C = 10 names the doubleword member (50_floating_point.md R480); any other C is held by
the word member, for indexing may still change the operand length (R148; log 25). -/
def WordFields.floating (f : WordFields) (w : MemRef 19 → Instr) (d : MemRef 17 → Instr) : Instr :=
  if f.c = 0b10#2 then d f.wordRef else w f.byteRef

/-- `is_halfword` (R144), on the op code and bits 12-15 of the first halfword. -/
def isHalfword (h : Half) : Bool :=
  let op := (h.extractLsb' 10 6).toNat
  let aug := (h.extractLsb' 0 4).toNat
  decide (op < 0x20) && !(decide (op = 0x0D)) && !(decide (op = 0x0B) && decide (aug = 7))

/-- Op code 000000 (R151). -/
def decodeGroup00 (f : HalfFields) : Option Instr :=
  match f.aug.toNat with
  | 0 => f.noOperand .halt
  | 1 => f.noOperand .wait
  | 2 => f.noOperand .nop
  | 3 => some (.lcs f.d)
  | 4 => some (.es f.d)
  | 5 => some (.rnd f.d)
  | 6 => f.noOperand .bei
  | 7 => f.noOperand .uei
  | 8 => f.noOperand .eae
  | 9 => some (.rdsts f.d)
  | 10 => f.noOperand .sipu
  | 11 => some (.rwcs f.s f.d)
  | 12 => some (.wwcs f.s f.d)
  | 13 => f.noOperand .sea
  | 14 => f.noOperand .dae
  | _ => f.noOperand .cea

/-- Op code 001011, its halfword members (R152). -/
def decodeGroup2C (f : HalfFields) : Option Instr :=
  match f.aug.toNat with
  | 0 => some (.trr f.s f.d)
  | 3 => some (.trc f.s f.d)
  | 4 => some (.trn f.s f.d)
  | 5 => some (.xcr f.s f.d)
  | 8 => some (.trrm f.s f.d)
  | 9 => some (.setcpu f.s)
  | 10 => some (.tmapr f.s f.d)
  | 11 => some (.trcm f.s f.d)
  | 12 => some (.trnm f.s f.d)
  | 13 => some (.xcrm f.s f.d)
  | 14 => some (.trsc f.s f.d)
  | 15 => some (.tscr f.s f.d)
  | _ => none

/-- A halfword instruction, or none for an unassigned encoding (R149, R160 (a) to (e)). -/
def decodeHalfFields (f : HalfFields) : Option Instr :=
  match f.op.toNat with
  | 0b000000 => decodeGroup00 f
  | 0b000001 => if f.aug = 0 then some (.anr f.s f.d) else none
  | 0b000010 => if f.aug = 0 then some (.orr f.s f.d) else if f.aug = 8 then some (.orrm f.s f.d) else none
  | 0b000011 => if f.aug = 0 then some (.eor f.s f.d) else if f.aug = 8 then some (.eorm f.s f.d) else none
  | 0b000100 => if f.aug = 0 then some (.car f.s f.d) else none
  | 0b000101 => if f.aug = 0 then some (.cmr f.s f.d) else none
  | 0b000110 => some (.sbr f.d f.s (f.aug.extractLsb' 0 2))
  | 0b000111 => some (.zbr f.d f.s (f.aug.extractLsb' 0 2))
  | 0b001000 => some (.abr f.d f.s (f.aug.extractLsb' 0 2))
  | 0b001001 => some (.tbr f.d f.s (f.aug.extractLsb' 0 2))
  | 0b001010 => if f.s = 0 ∧ f.aug = 0 then some (.trsw f.d) else none
  | 0b001011 => decodeGroup2C f
  | 0b001100 => some (.calm (f.d ++ f.s ++ f.aug))
  | 0b001110 => if f.aug = 0 then some (.adr f.s f.d) else if f.aug = 8 then some (.adrm f.s f.d) else none
  | 0b001111 => if f.aug = 0 then some (.sur f.s f.d) else if f.aug = 8 then some (.surm f.s f.d) else none
  | 0b010000 => if f.aug = 0 then some (.mpr f.s f.d) else none
  | 0b010001 => if f.aug = 0 then some (.dvr f.s f.d) else none
  | 0b011000 => if f.aug = 0 then some (.nor f.d f.s) else none
  | 0b011001 => if f.aug = 0 then some (.nord f.d f.s) else none
  | 0b011010 => if f.aug = 0 then some (.scz f.d f.s) else none
  | 0b011011 => if f.shiftLeft then some (.sla f.d f.shiftCount) else some (.sra f.d f.shiftCount)
  | 0b011100 => if f.shiftLeft then some (.sll f.d f.shiftCount) else some (.srl f.d f.shiftCount)
  | 0b011101 => if f.shiftLeft then some (.slc f.d f.shiftCount) else some (.src f.d f.shiftCount)
  | 0b011110 => if f.shiftLeft then some (.slad f.d f.shiftCount) else some (.srad f.d f.shiftCount)
  | 0b011111 => if f.shiftLeft then some (.slld f.d f.shiftCount) else some (.srld f.d f.shiftCount)
  | _ => none

/-- Op code 001011 as a word: LMAP (R152). -/
def decodeLmap (f : WordFields) : Option Instr :=
  if f.upper4 = 0 ∧ f.aug = 7 ∧ f.imm = 0 then some (.lmap f.r) else none

/-- Op code 110010 (R153). -/
def decodeGroupC8 (f : WordFields) : Option Instr :=
  match f.aug.toNat with
  | 0 => some (.li f.r f.imm)
  | 1 => some (.adi f.r f.imm)
  | 2 => some (.sui f.r f.imm)
  | 3 => some (.mpi f.r f.imm)
  | 4 => some (.dvi f.r f.imm)
  | 5 => some (.ci f.r f.imm)
  | 6 => if f.r = 0 ∧ f.upper4 = 0 then some (.svc (f.imm.extractLsb' 12 4) (f.imm.extractLsb' 0 12)) else none
  | _ =>
    if f.upper4 = 0 then
      if f.imm = 0 then some (.exr f.r) else if f.imm = 2 then some (.exrr f.r) else none
    else none

/-- Op code 111101 (R149). -/
def decodeGroupF4 (f : WordFields) : Instr :=
  match f.x.toNat with
  | 0 => .bib f.r f.ind f.fullRef.addr
  | 1 => .bih f.r f.ind f.fullRef.addr
  | 2 => .biw f.r f.ind f.fullRef.addr
  | _ => .bid f.r f.ind f.fullRef.addr

/-- Op code 111110 (R150). -/
def decodeGroupF8 (f : WordFields) : Option Instr :=
  match f.r.toNat with
  | 0 => some (f.typed (.zmb) (.zmh) (.zmw) (.zmd))
  | 1 => some (.bl f.fullRef)
  | 2 => some (.bri f.fullRef)
  | 3 => some (.lpsd f.fullRef)
  | 4 => some (.jwcs f.fullRef)
  | 5 => some (.lpsdcm f.fullRef)
  | 6 => some (.trp f.upper4 f.aug)
  | _ => some (.tpr f.upper4 f.aug)

/-- Op code 111111 with augmenting code 111 (R154). -/
def decodeClassF (f : WordFields) : Option Instr :=
  match f.upper4.toNat with
  | 2 => some (.sio f.r f.imm)
  | 3 => some (.tio f.r f.imm)
  | 4 => some (.stpio f.r f.imm)
  | 5 => some (.rschnl f.r f.imm)
  | 6 => some (.hio f.r f.imm)
  | 7 => some (.grio f.r f.imm)
  | 8 => some (.rsctl f.r f.imm)
  | 9 => some (.ecwcs f.r f.imm)
  | 11 => some (.wcwcs f.r f.imm)
  | 12 => some (.eci f.r f.imm)
  | 13 => some (.dci f.r f.imm)
  | 14 => some (.aci f.r f.imm)
  | 15 => some (.daci f.r f.imm)
  | _ => none

/-- Op code 111111 (R154). -/
def decodeGroupFC (f : WordFields) : Option Instr :=
  match f.aug.toNat with
  | 0 => some (.ei f.upper7)
  | 1 => some (.di f.upper7)
  | 2 => some (.ri f.upper7)
  | 3 => some (.ai f.upper7)
  | 4 => some (.dai f.upper7)
  | 5 => some (.td f.upper7 f.imm)
  | 6 => some (.cd f.upper7 f.imm)
  | _ => decodeClassF f

/-- A word instruction, or none for an unassigned encoding (R149, R160 (c), (f), (g)). -/
def decodeWordFields (f : WordFields) : Option Instr :=
  match f.op.toNat with
  | 0b001011 => decodeLmap f
  | 0b001101 => some (.la f.r f.fullRef)
  | 0b100000 => some (.lear f.r f.fullRef)
  | 0b100001 => some (f.typed (.anmb f.r) (.anmh f.r) (.anmw f.r) (.anmd f.r))
  | 0b100010 => some (f.typed (.ormb f.r) (.ormh f.r) (.ormw f.r) (.ormd f.r))
  | 0b100011 => some (f.typed (.eomb f.r) (.eomh f.r) (.eomw f.r) (.eomd f.r))
  | 0b100100 => some (f.typed (.camb f.r) (.camh f.r) (.camw f.r) (.camd f.r))
  | 0b100101 => some (f.typed (.cmmb f.r) (.cmmh f.r) (.cmmw f.r) (.cmmd f.r))
  | 0b100110 => some (.sbm f.r f.fullRef)
  | 0b100111 => some (.zbm f.r f.fullRef)
  | 0b101000 => some (.abm f.r f.fullRef)
  | 0b101001 => some (.tbm f.r f.fullRef)
  | 0b101010 => if f.r = 0 ∧ f.fbit = false then some (.exm f.byteRef) else none
  | 0b101011 => some (f.typed (.lb f.r) (.lh f.r) (.lw f.r) (.ld f.r))
  | 0b101100 => some (f.typed (.lmb f.r) (.lmh f.r) (.lmw f.r) (.lmd f.r))
  | 0b101101 => some (f.typed (.lnb f.r) (.lnh f.r) (.lnw f.r) (.lnd f.r))
  | 0b101110 => some (f.typed (.admb f.r) (.admh f.r) (.admw f.r) (.admd f.r))
  | 0b101111 => some (f.typed (.sumb f.r) (.sumh f.r) (.sumw f.r) (.sumd f.r))
  | 0b110000 => some (f.typedWide (.mpmb f.r) (.mpmh f.r) (.mpmw f.r))
  | 0b110001 => some (f.typedWide (.dvmb f.r) (.dvmh f.r) (.dvmw f.r))
  | 0b110010 => decodeGroupC8 f
  | 0b110011 => some (.lf f.r f.fullRef)
  | 0b110100 => some (.lea f.r f.fullRef)
  | 0b110101 => some (f.typed (.stb f.r) (.sth f.r) (.stw f.r) (.std f.r))
  | 0b110110 => some (f.typed (.stmb f.r) (.stmh f.r) (.stmw f.r) (.stmd f.r))
  | 0b110111 => some (.stf f.r f.fullRef)
  | 0b111000 => some (if f.fbit then f.floating (.adfw f.r) (.adfd f.r) else f.floating (.sufw f.r) (.sufd f.r))
  | 0b111001 => some (if f.fbit then f.floating (.mpfw f.r) (.mpfd f.r) else f.floating (.dvfw f.r) (.dvfd f.r))
  | 0b111010 => some (f.typed (.armb f.r) (.armh f.r) (.armw f.r) (.armd f.r))
  | 0b111011 => some (if f.r = 0 then .bu f.fullRef else .bct f.r f.fullRef)
  | 0b111100 => some (if f.r = 0 then .bft f.fullRef else .bcf f.r f.fullRef)
  | 0b111101 => some (decodeGroupF4 f)
  | 0b111110 => decodeGroupF8 f
  | 0b111111 => decodeGroupFC f
  | _ => none

def decodeFields : Fields → Option Instr
  | .half f => decodeHalfFields f
  | .word f => decodeWordFields f

/-- The instruction a halfword or word encodes (R148). -/
def decode : Code → Option Instr
  | .half h => decodeHalfFields (.ofHalf h)
  | .word w => decodeWordFields (.ofWord w)

/-- What decoding a run of bytes answers; each refusal has its own name. -/
inductive Decoded where
  /-- an instruction and the bytes after it -/
  | instr (i : Instr) (rest : List Byte)
  /-- a halfword that matches no row of the table -/
  | unassignedHalf (h : Half)
  /-- a word that matches no row of the table -/
  | unassignedWord (w : Word)
  /-- fewer bytes than the instruction has -/
  | tooShort
  deriving DecidableEq, Repr

/-- Decoding, total on any bytes: the byte at the lowest address holds bits 0-7 (R140). -/
def decodeBytes : List Byte → Decoded
  | b0 :: b1 :: bs =>
    if isHalfword (b0 ++ b1) then
      match decode (.half (b0 ++ b1)) with
      | some i => .instr i bs
      | none => .unassignedHalf (b0 ++ b1)
    else
      match bs with
      | b2 :: b3 :: rest =>
        match decode (.word (b0 ++ b1 ++ b2 ++ b3)) with
        | some i => .instr i rest
        | none => .unassignedWord (b0 ++ b1 ++ b2 ++ b3)
      | _ => .tooShort
  | _ => .tooShort

/-- The bytes of a halfword or word, the most significant at the lowest address (20_memory.md R81). -/
def Code.bytes : Code → List Byte
  | .half h => [h.extractLsb' 8 8, h.extractLsb' 0 8]
  | .word w => [w.extractLsb' 24 8, w.extractLsb' 16 8, w.extractLsb' 8 8, w.extractLsb' 0 8]

/-- The bytes of an opcode-table row's instruction, padded with zeros to a word. -/
def tableBytes (nbits w : Nat) : List Byte :=
  if nbits ≤ 16 then (Code.half (BitVec.ofNat 16 w)).bytes ++ [0, 0] else (Code.word (BitVec.ofNat 32 w)).bytes

/-- The instruction the decoder reads from a row of spec/opcode_table.json. -/
def decodeTableWord (nbits w : Nat) : Option Instr :=
  match decodeBytes (tableBytes nbits w) with
  | .instr i _ => some i
  | _ => none

/-- The fields of a byte member: F = 1. -/
def WordFields.byteMember (op : BitVec 6) (r : Reg) (m : MemRef 19) : WordFields :=
  ⟨op, r, m.x, m.ind, true, m.addr.extractLsb' 2 17, m.addr.extractLsb' 0 2⟩

/-- The fields of a halfword member: F = 0, bit 31 = 1. -/
def WordFields.halfMember (op : BitVec 6) (r : Reg) (m : MemRef 18) : WordFields :=
  ⟨op, r, m.x, m.ind, false, m.addr.extractLsb' 1 17, m.addr.extractLsb' 0 1 ++ 1#1⟩

/-- The fields of a word member: F = 0, C = 00. -/
def WordFields.wordMember (op : BitVec 6) (r : Reg) (m : MemRef 17) : WordFields :=
  ⟨op, r, m.x, m.ind, false, m.addr, 0b00#2⟩

/-- The fields of a doubleword member: F = 0, C = 10. -/
def WordFields.doubleMember (op : BitVec 6) (r : Reg) (m : MemRef 17) : WordFields :=
  ⟨op, r, m.x, m.ind, false, m.addr, 0b10#2⟩

/-- The fields of a word member that keeps bit 30: F = 0, bit 31 = 0. -/
def WordFields.wideMember (op : BitVec 6) (r : Reg) (m : MemRef 18) : WordFields :=
  ⟨op, r, m.x, m.ind, false, m.addr.extractLsb' 1 17, m.addr.extractLsb' 0 1 ++ 0#1⟩

/-- The fields of an instruction that keeps bits 12-31 whole. -/
def WordFields.fullMember (op : BitVec 6) (r : Reg) (m : MemRef 20) : WordFields :=
  ⟨op, r, m.x, m.ind, m.addr.getLsbD 19, m.addr.extractLsb' 2 17, m.addr.extractLsb' 0 2⟩

/-- The fields of an instruction whose bit 12 is fixed and whose bits 13-31 are kept. -/
def WordFields.floatWord (op : BitVec 6) (r : Reg) (fbit : Bool) (m : MemRef 19) : WordFields :=
  ⟨op, r, m.x, m.ind, fbit, m.addr.extractLsb' 2 17, m.addr.extractLsb' 0 2⟩

/-- The fields of a floating-point doubleword member: C = 10. -/
def WordFields.floatDouble (op : BitVec 6) (r : Reg) (fbit : Bool) (m : MemRef 17) : WordFields :=
  ⟨op, r, m.x, m.ind, fbit, m.addr, 0b10#2⟩

/-- The fields of an instruction cut at bits 6-8, 9-12, 13-15 and 16-31. -/
def WordFields.packed (op : BitVec 6) (r : Reg) (u : BitVec 4) (aug : BitVec 3) (v : Half) : WordFields :=
  ⟨op, r, u.extractLsb' 2 2, u.getLsbD 1, u.getLsbD 0, aug ++ v.extractLsb' 2 14, v.extractLsb' 0 2⟩

/-- The fields of the immediate format (R142). -/
def WordFields.immediate (op : BitVec 6) (r : Reg) (aug : BitVec 3) (v : Half) : WordFields :=
  .packed op r 0 aug v

/-- The fields of the shift format (R145). -/
def HalfFields.shift (op : BitVec 6) (r : Reg) (left : Bool) (n : BitVec 5) : HalfFields :=
  ⟨op, r, BitVec.ofBool left ++ 0#1 ++ n.extractLsb' 4 1, n.extractLsb' 0 4⟩

/-- The fields of an instruction, every ignored bit zero, from the encoding tables R149 to R154. -/
def encodeFields : Instr → Fields
  | .lb r m => .word (.byteMember 0b101011#6 r m)
  | .lh r m => .word (.halfMember 0b101011#6 r m)
  | .lw r m => .word (.wordMember 0b101011#6 r m)
  | .ld r m => .word (.doubleMember 0b101011#6 r m)
  | .lmb r m => .word (.byteMember 0b101100#6 r m)
  | .lmh r m => .word (.halfMember 0b101100#6 r m)
  | .lmw r m => .word (.wordMember 0b101100#6 r m)
  | .lmd r m => .word (.doubleMember 0b101100#6 r m)
  | .lnb r m => .word (.byteMember 0b101101#6 r m)
  | .lnh r m => .word (.halfMember 0b101101#6 r m)
  | .lnw r m => .word (.wordMember 0b101101#6 r m)
  | .lnd r m => .word (.doubleMember 0b101101#6 r m)
  | .li r v => .word (.immediate 0b110010#6 r 0b000#3 v)
  | .lea r m => .word (.fullMember 0b110100#6 r m)
  | .lear r m => .word (.fullMember 0b100000#6 r m)
  | .la r m => .word (.fullMember 0b001101#6 r m)
  | .lf r m => .word (.fullMember 0b110011#6 r m)
  | .stb r m => .word (.byteMember 0b110101#6 r m)
  | .sth r m => .word (.halfMember 0b110101#6 r m)
  | .stw r m => .word (.wordMember 0b110101#6 r m)
  | .std r m => .word (.doubleMember 0b110101#6 r m)
  | .stmb r m => .word (.byteMember 0b110110#6 r m)
  | .stmh r m => .word (.halfMember 0b110110#6 r m)
  | .stmw r m => .word (.wordMember 0b110110#6 r m)
  | .stmd r m => .word (.doubleMember 0b110110#6 r m)
  | .stf r m => .word (.fullMember 0b110111#6 r m)
  | .zmb m => .word (.byteMember 0b111110#6 0 m)
  | .zmh m => .word (.halfMember 0b111110#6 0 m)
  | .zmw m => .word (.wordMember 0b111110#6 0 m)
  | .zmd m => .word (.doubleMember 0b111110#6 0 m)
  | .zr d => .half ⟨0b000011#6, d, d, 0⟩
  | .tscr s d => .half ⟨0b001011#6, d, s, 0b1111#4⟩
  | .trsc s d => .half ⟨0b001011#6, d, s, 0b1110#4⟩
  | .trr s d => .half ⟨0b001011#6, d, s, 0b0000#4⟩
  | .trrm s d => .half ⟨0b001011#6, d, s, 0b1000#4⟩
  | .trp p r => .word (.packed 0b111110#6 6 p r 0)
  | .tpr p r => .word (.packed 0b111110#6 7 p r 0)
  | .trn s d => .half ⟨0b001011#6, d, s, 0b0100#4⟩
  | .trnm s d => .half ⟨0b001011#6, d, s, 0b1100#4⟩
  | .trc s d => .half ⟨0b001011#6, d, s, 0b0011#4⟩
  | .trcm s d => .half ⟨0b001011#6, d, s, 0b1011#4⟩
  | .xcr s d => .half ⟨0b001011#6, d, s, 0b0101#4⟩
  | .xcrm s d => .half ⟨0b001011#6, d, s, 0b1101#4⟩
  | .trsw s => .half ⟨0b001010#6, s, 0, 0⟩
  | .sea => .half ⟨0b000000#6, 0, 0, 0b1101#4⟩
  | .cea => .half ⟨0b000000#6, 0, 0, 0b1111#4⟩
  | .lmap d => .word (.packed 0b001011#6 d 0 7 0)
  | .tmapr s d => .half ⟨0b001011#6, d, s, 0b1010#4⟩
  | .wwcs s d => .half ⟨0b000000#6, d, s, 0b1100#4⟩
  | .rwcs s d => .half ⟨0b000000#6, d, s, 0b1011#4⟩
  | .jwcs m => .word (.fullMember 0b111110#6 4 m)
  | .bu m => .word (.fullMember 0b111011#6 0 m)
  | .bct c m => .word (.fullMember 0b111011#6 c m)
  | .bcf c m => .word (.fullMember 0b111100#6 c m)
  | .bft m => .word (.fullMember 0b111100#6 0 m)
  | .bl m => .word (.fullMember 0b111110#6 1 m)
  | .bib r ind a => .word (.fullMember 0b111101#6 r ⟨0, ind, a⟩)
  | .bih r ind a => .word (.fullMember 0b111101#6 r ⟨1, ind, a⟩)
  | .biw r ind a => .word (.fullMember 0b111101#6 r ⟨2, ind, a⟩)
  | .bid r ind a => .word (.fullMember 0b111101#6 r ⟨3, ind, a⟩)
  | .camb r m => .word (.byteMember 0b100100#6 r m)
  | .camh r m => .word (.halfMember 0b100100#6 r m)
  | .camw r m => .word (.wordMember 0b100100#6 r m)
  | .camd r m => .word (.doubleMember 0b100100#6 r m)
  | .car s d => .half ⟨0b000100#6, d, s, 0b0000#4⟩
  | .ci r v => .word (.immediate 0b110010#6 r 0b101#3 v)
  | .cmmb r m => .word (.byteMember 0b100101#6 r m)
  | .cmmh r m => .word (.halfMember 0b100101#6 r m)
  | .cmmw r m => .word (.wordMember 0b100101#6 r m)
  | .cmmd r m => .word (.doubleMember 0b100101#6 r m)
  | .cmr s d => .half ⟨0b000101#6, d, s, 0b0000#4⟩
  | .anmb r m => .word (.byteMember 0b100001#6 r m)
  | .anmh r m => .word (.halfMember 0b100001#6 r m)
  | .anmw r m => .word (.wordMember 0b100001#6 r m)
  | .anmd r m => .word (.doubleMember 0b100001#6 r m)
  | .anr s d => .half ⟨0b000001#6, d, s, 0b0000#4⟩
  | .ormb r m => .word (.byteMember 0b100010#6 r m)
  | .ormh r m => .word (.halfMember 0b100010#6 r m)
  | .ormw r m => .word (.wordMember 0b100010#6 r m)
  | .ormd r m => .word (.doubleMember 0b100010#6 r m)
  | .orr s d => .half ⟨0b000010#6, d, s, 0b0000#4⟩
  | .orrm s d => .half ⟨0b000010#6, d, s, 0b1000#4⟩
  | .eomb r m => .word (.byteMember 0b100011#6 r m)
  | .eomh r m => .word (.halfMember 0b100011#6 r m)
  | .eomw r m => .word (.wordMember 0b100011#6 r m)
  | .eomd r m => .word (.doubleMember 0b100011#6 r m)
  | .eor s d => .half ⟨0b000011#6, d, s, 0b0000#4⟩
  | .eorm s d => .half ⟨0b000011#6, d, s, 0b1000#4⟩
  | .nor s d => .half ⟨0b011000#6, s, d, 0b0000#4⟩
  | .nord s d => .half ⟨0b011001#6, s, d, 0b0000#4⟩
  | .scz s d => .half ⟨0b011010#6, s, d, 0b0000#4⟩
  | .sla r n => .half (.shift 0b011011#6 r true n)
  | .sll r n => .half (.shift 0b011100#6 r true n)
  | .slc r n => .half (.shift 0b011101#6 r true n)
  | .slad r n => .half (.shift 0b011110#6 r true n)
  | .slld r n => .half (.shift 0b011111#6 r true n)
  | .sra r n => .half (.shift 0b011011#6 r false n)
  | .srl r n => .half (.shift 0b011100#6 r false n)
  | .src r n => .half (.shift 0b011101#6 r false n)
  | .srad r n => .half (.shift 0b011110#6 r false n)
  | .srld r n => .half (.shift 0b011111#6 r false n)
  | .sbm c m => .word (.fullMember 0b100110#6 c m)
  | .sbr c r b => .half ⟨0b000110#6, c, r, 0#2 ++ b⟩
  | .zbm c m => .word (.fullMember 0b100111#6 c m)
  | .zbr c r b => .half ⟨0b000111#6, c, r, 0#2 ++ b⟩
  | .abm c m => .word (.fullMember 0b101000#6 c m)
  | .abr c r b => .half ⟨0b001000#6, c, r, 0#2 ++ b⟩
  | .tbm c m => .word (.fullMember 0b101001#6 c m)
  | .tbr c r b => .half ⟨0b001001#6, c, r, 0#2 ++ b⟩
  | .admb r m => .word (.byteMember 0b101110#6 r m)
  | .admh r m => .word (.halfMember 0b101110#6 r m)
  | .admw r m => .word (.wordMember 0b101110#6 r m)
  | .admd r m => .word (.doubleMember 0b101110#6 r m)
  | .adr s d => .half ⟨0b001110#6, d, s, 0b0000#4⟩
  | .adrm s d => .half ⟨0b001110#6, d, s, 0b1000#4⟩
  | .armb r m => .word (.byteMember 0b111010#6 r m)
  | .armh r m => .word (.halfMember 0b111010#6 r m)
  | .armw r m => .word (.wordMember 0b111010#6 r m)
  | .armd r m => .word (.doubleMember 0b111010#6 r m)
  | .adi r v => .word (.immediate 0b110010#6 r 0b001#3 v)
  | .sumb r m => .word (.byteMember 0b101111#6 r m)
  | .sumh r m => .word (.halfMember 0b101111#6 r m)
  | .sumw r m => .word (.wordMember 0b101111#6 r m)
  | .sumd r m => .word (.doubleMember 0b101111#6 r m)
  | .sur s d => .half ⟨0b001111#6, d, s, 0b0000#4⟩
  | .surm s d => .half ⟨0b001111#6, d, s, 0b1000#4⟩
  | .sui r v => .word (.immediate 0b110010#6 r 0b010#3 v)
  | .mpmb r m => .word (.byteMember 0b110000#6 r m)
  | .mpmh r m => .word (.halfMember 0b110000#6 r m)
  | .mpmw r m => .word (.wideMember 0b110000#6 r m)
  | .mpr s d => .half ⟨0b010000#6, d, s, 0b0000#4⟩
  | .mpi r v => .word (.immediate 0b110010#6 r 0b011#3 v)
  | .dvmb r m => .word (.byteMember 0b110001#6 r m)
  | .dvmh r m => .word (.halfMember 0b110001#6 r m)
  | .dvmw r m => .word (.wideMember 0b110001#6 r m)
  | .dvr s d => .half ⟨0b010001#6, d, s, 0b0000#4⟩
  | .dvi r v => .word (.immediate 0b110010#6 r 0b100#3 v)
  | .es d => .half ⟨0b000000#6, d, 0, 0b0100#4⟩
  | .rnd d => .half ⟨0b000000#6, d, 0, 0b0101#4⟩
  | .adfw r m => .word (.floatWord 0b111000#6 r true m)
  | .adfd r m => .word (.floatDouble 0b111000#6 r true m)
  | .sufw r m => .word (.floatWord 0b111000#6 r false m)
  | .sufd r m => .word (.floatDouble 0b111000#6 r false m)
  | .mpfw r m => .word (.floatWord 0b111001#6 r true m)
  | .mpfd r m => .word (.floatDouble 0b111001#6 r true m)
  | .dvfw r m => .word (.floatWord 0b111001#6 r false m)
  | .dvfd r m => .word (.floatDouble 0b111001#6 r false m)
  | .bri m => .word (.fullMember 0b111110#6 2 m)
  | .lpsd m => .word (.fullMember 0b111110#6 3 m)
  | .lcs d => .half ⟨0b000000#6, d, 0, 0b0011#4⟩
  | .lpsdcm m => .word (.fullMember 0b111110#6 5 m)
  | .exr s => .word (.packed 0b110010#6 s 0 7 0)
  | .exrr s => .word (.packed 0b110010#6 s 0 7 2)
  | .exm m => .word (.floatWord 0b101010#6 0 false m)
  | .halt => .half ⟨0b000000#6, 0, 0, 0b0000#4⟩
  | .wait => .half ⟨0b000000#6, 0, 0, 0b0001#4⟩
  | .nop => .half ⟨0b000000#6, 0, 0, 0b0010#4⟩
  | .sipu => .half ⟨0b000000#6, 0, 0, 0b1010#4⟩
  | .calm flags => .half ⟨0b001100#6, flags.extractLsb' 7 3, flags.extractLsb' 4 3, flags.extractLsb' 0 4⟩
  | .svc ix call => .word (.packed 0b110010#6 0 0 6 (ix ++ call))
  | .setcpu s => .half ⟨0b001011#6, 0, s, 0b1001#4⟩
  | .rdsts d => .half ⟨0b000000#6, d, 0, 0b1001#4⟩
  | .eae => .half ⟨0b000000#6, 0, 0, 0b1000#4⟩
  | .dae => .half ⟨0b000000#6, 0, 0, 0b1110#4⟩
  | .ei l => .word (.packed 0b111111#6 (l.extractLsb' 4 3) (l.extractLsb' 0 4) 0b000#3 0)
  | .di l => .word (.packed 0b111111#6 (l.extractLsb' 4 3) (l.extractLsb' 0 4) 0b001#3 0)
  | .ri l => .word (.packed 0b111111#6 (l.extractLsb' 4 3) (l.extractLsb' 0 4) 0b010#3 0)
  | .ai l => .word (.packed 0b111111#6 (l.extractLsb' 4 3) (l.extractLsb' 0 4) 0b011#3 0)
  | .dai l => .word (.packed 0b111111#6 (l.extractLsb' 4 3) (l.extractLsb' 0 4) 0b100#3 0)
  | .eci r k => .word (.packed 0b111111#6 r 0b1100#4 7 k)
  | .dci r k => .word (.packed 0b111111#6 r 0b1101#4 7 k)
  | .aci r k => .word (.packed 0b111111#6 r 0b1110#4 7 k)
  | .daci r k => .word (.packed 0b111111#6 r 0b1111#4 7 k)
  | .bei => .half ⟨0b000000#6, 0, 0, 0b0110#4⟩
  | .uei => .half ⟨0b000000#6, 0, 0, 0b0111#4⟩
  | .cd n f => .word (.packed 0b111111#6 (n.extractLsb' 4 3) (n.extractLsb' 0 4) 0b110#3 f)
  | .td n f => .word (.packed 0b111111#6 (n.extractLsb' 4 3) (n.extractLsb' 0 4) 0b101#3 f)
  | .sio r k => .word (.packed 0b111111#6 r 0b0010#4 7 k)
  | .tio r k => .word (.packed 0b111111#6 r 0b0011#4 7 k)
  | .stpio r k => .word (.packed 0b111111#6 r 0b0100#4 7 k)
  | .rschnl r k => .word (.packed 0b111111#6 r 0b0101#4 7 k)
  | .hio r k => .word (.packed 0b111111#6 r 0b0110#4 7 k)
  | .grio r k => .word (.packed 0b111111#6 r 0b0111#4 7 k)
  | .rsctl r k => .word (.packed 0b111111#6 r 0b1000#4 7 k)
  | .ecwcs r k => .word (.packed 0b111111#6 r 0b1001#4 7 k)
  | .wcwcs r k => .word (.packed 0b111111#6 r 0b1011#4 7 k)

/-- The halfword or word of an instruction. -/
def encode (i : Instr) : Code := (encodeFields i).toCode

end Sys2Proof
end

