-- ==== Sys2Proof/Machine/LoadStore.lean ====
section
/-! DEFINITION. Load and Store (40_load_store.md R200 to R231). -/

namespace Sys2Proof.Machine

/-- The mask register (R200 (a)). -/
def State.mask (s : State) : Word := s.reg 4

/-- A mask for both words of a doubleword. -/
def State.maskPair (s : State) : Double := s.mask ++ s.mask

/-- A register receives a value and the condition code its sign (R40). -/
def State.setRegCc (s : State) (r : Reg) (v : Word) : State := (s.setReg r v).setCc (ccOf false v)

/-! ## Loads -/

/-- LB: zero extended (R201). -/
def loadByte (r : Reg) (a : Addr) (s : State) : Outcome :=
  (s.load8 a).finish fun b s1 => .next (s1.setRegCc r (BitVec.zeroExtend 32 b))

/-- LH: sign extended (R202). -/
def loadHalf (r : Reg) (a : Addr) (s : State) : Outcome :=
  (s.load16 a).finish fun h s1 => .next (s1.setRegCc r (BitVec.signExtend 32 h))

/-- LW (R203). -/
def loadWord (r : Reg) (a : Addr) (s : State) : Outcome :=
  (s.load32 a).finish fun w s1 => .next (s1.setRegCc r w)

/-- LD and LMD: the low-order word is loaded first, each word through the mask `k` (R204, R208). If the second access
traps, the odd register has been loaded. -/
def loadDoubleMasked (k : Word) (r : Reg) (a : Addr) (s : State) : Outcome :=
  (s.load32 (a + 4)).finish fun lo s1 =>
    ((s1.setReg (oddReg r) (lo &&& k)).load32 a).finish fun hi s2 =>
      .next ((s2.setReg (evenReg r) (hi &&& k)).setCc (ccOf false ((hi &&& k) ++ (lo &&& k))))

/-- The load family (R201 to R204). -/
def loadMembers (r : Reg) : Members where
  byte := loadByte r
  half := loadHalf r
  word := loadWord r
  double := loadDoubleMasked 0xFFFFFFFF r

/-- LMB (R205). -/
def loadMaskedByte (r : Reg) (a : Addr) (s : State) : Outcome :=
  (s.load8 a).finish fun b s1 => .next (s1.setRegCc r (BitVec.zeroExtend 32 (b &&& s.mask.extractLsb' 0 8)))

/-- LMH (R206). -/
def loadMaskedHalf (r : Reg) (a : Addr) (s : State) : Outcome :=
  (s.load16 a).finish fun h s1 => .next (s1.setRegCc r (BitVec.signExtend 32 h &&& s.mask))

/-- LMW (R207). -/
def loadMaskedWord (r : Reg) (a : Addr) (s : State) : Outcome :=
  (s.load32 a).finish fun w s1 => .next (s1.setRegCc r (w &&& s.mask))

/-- LMD: the mask is read once, before either register is written (R208, D24). -/
def loadMaskedDouble (r : Reg) (a : Addr) (s : State) : Outcome := loadDoubleMasked s.mask r a s

/-- The masked load family (R205 to R208). -/
def loadMaskedMembers (r : Reg) : Members where
  byte := loadMaskedByte r
  half := loadMaskedHalf r
  word := loadMaskedWord r
  double := loadMaskedDouble r

/-- LNB (R209). -/
def loadNegByte (r : Reg) (a : Addr) (s : State) : Outcome :=
  (s.load8 a).finish fun b s1 => .next (s1.setRegCc r (0 - BitVec.zeroExtend 32 b))

/-- LNH (R210). -/
def loadNegHalf (r : Reg) (a : Addr) (s : State) : Outcome :=
  (s.load16 a).finish fun h s1 => .next (s1.setRegCc r (0 - BitVec.signExtend 32 h))

/-- LNW (R211). -/
def loadNegWord (r : Reg) (a : Addr) (s : State) : Outcome :=
  (s.load32 a).finish fun w s1 => .next ((s1.setReg r (0 - w)).setArith (negOverflow w) (0 - w))

/-- LND (R212): both words are read before either register is written. -/
def loadNegDouble (r : Reg) (a : Addr) (s : State) : Outcome :=
  (s.load64 a).finish fun v s1 => .next ((s1.setRegPair r (0 - v)).setArith (negOverflow v) (0 - v))

/-- The load negative family (R209 to R212). -/
def loadNegMembers (r : Reg) : Members where
  byte := loadNegByte r
  half := loadNegHalf r
  word := loadNegWord r
  double := loadNegDouble r

def execLb (r : Reg) (m : MemRef 19) (s : State) : Outcome := withOperand m.ofByte.word (loadMembers r) s
def execLh (r : Reg) (m : MemRef 18) (s : State) : Outcome := withOperand m.ofHalf.word (loadMembers r) s
def execLw (r : Reg) (m : MemRef 17) (s : State) : Outcome := withOperand m.ofWord.word (loadMembers r) s
def execLd (r : Reg) (m : MemRef 17) (s : State) : Outcome := withOperand m.ofDouble.word (loadMembers r) s
def execLmb (r : Reg) (m : MemRef 19) (s : State) : Outcome := withOperand m.ofByte.word (loadMaskedMembers r) s
def execLmh (r : Reg) (m : MemRef 18) (s : State) : Outcome := withOperand m.ofHalf.word (loadMaskedMembers r) s
def execLmw (r : Reg) (m : MemRef 17) (s : State) : Outcome := withOperand m.ofWord.word (loadMaskedMembers r) s
def execLmd (r : Reg) (m : MemRef 17) (s : State) : Outcome := withOperand m.ofDouble.word (loadMaskedMembers r) s
def execLnb (r : Reg) (m : MemRef 19) (s : State) : Outcome := withOperand m.ofByte.word (loadNegMembers r) s
def execLnh (r : Reg) (m : MemRef 18) (s : State) : Outcome := withOperand m.ofHalf.word (loadNegMembers r) s
def execLnw (r : Reg) (m : MemRef 17) (s : State) : Outcome := withOperand m.ofWord.word (loadNegMembers r) s
def execLnd (r : Reg) (m : MemRef 17) (s : State) : Outcome := withOperand m.ofDouble.word (loadNegMembers r) s

/-- LI (R213). -/
def execLi (r : Reg) (v : Half) (s : State) : Outcome := .next (s.setRegCc r (BitVec.signExtend 32 v))

/-! ## Addresses -/

/-- The whole instruction word of LEA, whose bits 0-11 take part in its result (R214). -/
def leaWord (r : Reg) (m : MemRef 20) : Word := ((WordFields.fullMember 0b110100#6 r m).toWord)

/-- What LEA delivers, by control mode and addressing mode (R214, D24). -/
def leaValue (s : State) (e : Effective) : Word :=
  if s.ext then e.word.extractLsb' 30 2 ++ 0#6 ++ e.ea
  else match s.mode with
    | .psw => e.sum
    | .psd => e.sum.extractLsb' 30 2 ++ 0#10 ++ BitVec.ofBool e.ef ++ e.ea.extractLsb' 0 19

/-- LEA (R214): no operand access, CC unchanged. -/
def execLea (r : Reg) (m : MemRef 20) (s : State) : Outcome :=
  (s.effective (leaWord r m)).finish fun e s1 => .next (s1.setReg r (leaValue s1 e))

/-- LEAR (R215): the address is translated, the operand is not accessed. -/
def execLear (r : Reg) (m : MemRef 20) (s : State) : Outcome :=
  psdOnly s (privileged s ((s.effective m.word).finish fun e s1 =>
    match s1.translate e.ea with
    | none => raise (.mapFault false) s1
    | some pa => .next (s1.setReg r (0#7 ++ BitVec.ofBool e.ef ++ pa))))

/-- What LA delivers (R216). -/
def laValue (s : State) (e : Effective) : Word :=
  if s.ext then 0#8 ++ e.ea else 0#12 ++ BitVec.ofBool e.ef ++ e.ea.extractLsb' 0 19

/-- LA (R216). -/
def execLa (r : Reg) (m : MemRef 20) (s : State) : Outcome :=
  psdOnly s ((s.effective m.word).finish fun e s1 => .next (s1.setReg r (laValue s1 e)))

/-! ## Register files -/

/-- The next word inside the same eight-word block (R217, D25): bits 27-29 alone are incremented. -/
def fileNext (a : Addr) : Addr := a.extractLsb' 5 19 ++ (a.extractLsb' 2 3 + 1) ++ a.extractLsb' 0 2

/-- LF's transfers: `n` registers from `k` (R217). A trap leaves the registers already loaded. -/
def loadFile : Nat → Reg → Addr → State → Outcome
  | 0, _, _, s => .next s
  | n + 1, k, a, s => (s.load32 a).finish fun w s1 => loadFile n (k + 1) (fileNext a) (s1.setReg k w)

/-- STF's transfers (R226). -/
def storeFile : Nat → Reg → Addr → State → Outcome
  | 0, _, _, s => .next s
  | n + 1, k, a, s => (s.store32 a (s.reg k)).finish fun _ s1 => storeFile n (k + 1) (fileNext a) s1

/-- LF (R217): registers `r` to 7. -/
def execLf (r : Reg) (m : MemRef 20) (s : State) : Outcome := withWord m.word (loadFile (8 - r.toNat) r) s

/-- STF (R226). -/
def execStf (r : Reg) (m : MemRef 20) (s : State) : Outcome := withWord m.word (storeFile (8 - r.toNat) r) s

/-! ## Stores -/

/-- A store of a value of each width; the condition code is unchanged (R218 to R225, R227 to R230). -/
def storeMembers (v : Double) : Members where
  byte a s := (s.store8 a (v.extractLsb' 0 8)).finish fun _ s1 => .next s1
  half a s := (s.store16 a (v.extractLsb' 0 16)).finish fun _ s1 => .next s1
  word a s := (s.store32 a (v.extractLsb' 0 32)).finish fun _ s1 => .next s1
  double a s := (s.store64 a v).finish fun _ s1 => .next s1

/-- What the register field stores: the register itself, or the pair for a doubleword (R218 to R221). -/
def storeFamily (r : Reg) : Members where
  byte a s := (storeMembers (BitVec.zeroExtend 64 (s.reg r))).byte a s
  half a s := (storeMembers (BitVec.zeroExtend 64 (s.reg r))).half a s
  word a s := (storeMembers (BitVec.zeroExtend 64 (s.reg r))).word a s
  double a s := (storeMembers (s.regPair r)).double a s

/-- The masked store stores the ANDed value (R222 to R225). -/
def storeMaskedFamily (r : Reg) : Members where
  byte a s := (storeMembers (BitVec.zeroExtend 64 (s.reg r &&& s.mask))).byte a s
  half a s := (storeMembers (BitVec.zeroExtend 64 (s.reg r &&& s.mask))).half a s
  word a s := (storeMembers (BitVec.zeroExtend 64 (s.reg r &&& s.mask))).word a s
  double a s := (storeMembers (s.regPair r &&& s.maskPair)).double a s

def execStb (r : Reg) (m : MemRef 19) (s : State) : Outcome := withOperand m.ofByte.word (storeFamily r) s
def execSth (r : Reg) (m : MemRef 18) (s : State) : Outcome := withOperand m.ofHalf.word (storeFamily r) s
def execStw (r : Reg) (m : MemRef 17) (s : State) : Outcome := withOperand m.ofWord.word (storeFamily r) s
def execStd (r : Reg) (m : MemRef 17) (s : State) : Outcome := withOperand m.ofDouble.word (storeFamily r) s
def execStmb (r : Reg) (m : MemRef 19) (s : State) : Outcome := withOperand m.ofByte.word (storeMaskedFamily r) s
def execStmh (r : Reg) (m : MemRef 18) (s : State) : Outcome := withOperand m.ofHalf.word (storeMaskedFamily r) s
def execStmw (r : Reg) (m : MemRef 17) (s : State) : Outcome := withOperand m.ofWord.word (storeMaskedFamily r) s
def execStmd (r : Reg) (m : MemRef 17) (s : State) : Outcome := withOperand m.ofDouble.word (storeMaskedFamily r) s

/-! ## Zero -/

def execZmb (m : MemRef 19) (s : State) : Outcome := withOperand m.ofByte.word (storeMembers 0) s
def execZmh (m : MemRef 18) (s : State) : Outcome := withOperand m.ofHalf.word (storeMembers 0) s
def execZmw (m : MemRef 17) (s : State) : Outcome := withOperand m.ofWord.word (storeMembers 0) s
def execZmd (m : MemRef 17) (s : State) : Outcome := withOperand m.ofDouble.word (storeMembers 0) s

/-- ZR, EOR of a register with itself (R231). -/
def execZr (d : Reg) (s : State) : Outcome := .next (s.setRegCc d (s.reg d ^^^ s.reg d))

end Sys2Proof.Machine
end

