-- ==== Sys2Proof/Machine/Logical.lean ====
section
/-! DEFINITION. Logical (46_logical.md R340 to R357). The memory operand is only read. -/

namespace Sys2Proof.Machine

/-- The two-operand logical functions. -/
inductive LogicOp where
  | and
  | or
  | xor
  deriving DecidableEq, Repr

/-- The function, on operands of any width. -/
def LogicOp.apply {n : Nat} : LogicOp → BitVec n → BitVec n → BitVec n
  | .and, a, b => a &&& b
  | .or, a, b => a ||| b
  | .xor, a, b => a ^^^ b

/-- The condition code of a byte or halfword form: AND tests the field alone, as an unsigned value (R341, R342); OR
and exclusive OR test the whole register (R346, R352). -/
def LogicOp.fieldCc {n : Nat} (op : LogicOp) (field : BitVec n) (whole : Word) : BitVec 4 :=
  match op with
  | .and => ccBits false (decide (field ≠ 0)) false (decide (field = 0))
  | .or => ccOf false whole
  | .xor => ccOf false whole

/-- The byte form: bits 24-31 are replaced, bits 0-23 unchanged (R341). -/
def logicByte (op : LogicOp) (r : Reg) (a : Addr) (s : State) : Outcome :=
  (s.load8 a).finish fun b s1 =>
    let v := op.apply b ((s1.reg r).extractLsb' 0 8)
    let w : Word := (s1.reg r).extractLsb' 8 24 ++ v
    .next ((s1.setReg r w).setCc (op.fieldCc v w))

/-- The halfword form: bits 16-31 are replaced (R342). -/
def logicHalf (op : LogicOp) (r : Reg) (a : Addr) (s : State) : Outcome :=
  (s.load16 a).finish fun h s1 =>
    let v := op.apply h ((s1.reg r).extractLsb' 0 16)
    let w : Word := (s1.reg r).extractLsb' 16 16 ++ v
    .next ((s1.setReg r w).setCc (op.fieldCc v w))

/-- The word form (R343). -/
def logicWord (op : LogicOp) (r : Reg) (a : Addr) (s : State) : Outcome :=
  (s.load32 a).finish fun w s1 =>
    .next ((s1.setReg r (op.apply w (s1.reg r))).setCc (ccOf false (op.apply w (s1.reg r))))

/-- The doubleword form: the low-order word first, its register written before the second access (R344, D24). -/
def logicDouble (op : LogicOp) (r : Reg) (a : Addr) (s : State) : Outcome :=
  (s.load32 (a + 4)).finish fun lo s1 =>
    let l := op.apply lo (s1.reg (oddReg r))
    ((s1.setReg (oddReg r) l).load32 a).finish fun hi s2 =>
      let h := op.apply hi (s2.reg (evenReg r))
      .next ((s2.setReg (evenReg r) h).setCc (ccOf false (h ++ l)))

/-- A logical family. -/
def logicMembers (op : LogicOp) (r : Reg) : Members where
  byte := logicByte op r
  half := logicHalf op r
  word := logicWord op r
  double := logicDouble op r

/-- A register-to-register form through a mask (R345, R351). -/
def logicReg (op : LogicOp) (sr d : Reg) (mask : Word) (s : State) : Outcome :=
  let v := op.apply (s.reg sr) (s.reg d) &&& mask
  .next ((s.setReg d v).setCc (ccOf false v))

def execAnmb (r : Reg) (m : MemRef 19) (s : State) : Outcome := withOperand m.ofByte.word (logicMembers .and r) s
def execAnmh (r : Reg) (m : MemRef 18) (s : State) : Outcome := withOperand m.ofHalf.word (logicMembers .and r) s
def execAnmw (r : Reg) (m : MemRef 17) (s : State) : Outcome := withOperand m.ofWord.word (logicMembers .and r) s
def execAnmd (r : Reg) (m : MemRef 17) (s : State) : Outcome := withOperand m.ofDouble.word (logicMembers .and r) s
def execAnr (sr d : Reg) (s : State) : Outcome := logicReg .and sr d 0xFFFFFFFF s
def execOrmb (r : Reg) (m : MemRef 19) (s : State) : Outcome := withOperand m.ofByte.word (logicMembers .or r) s
def execOrmh (r : Reg) (m : MemRef 18) (s : State) : Outcome := withOperand m.ofHalf.word (logicMembers .or r) s
def execOrmw (r : Reg) (m : MemRef 17) (s : State) : Outcome := withOperand m.ofWord.word (logicMembers .or r) s
def execOrmd (r : Reg) (m : MemRef 17) (s : State) : Outcome := withOperand m.ofDouble.word (logicMembers .or r) s
def execOrr (sr d : Reg) (s : State) : Outcome := logicReg .or sr d 0xFFFFFFFF s

/-- ORRM: masked by R4 (R351). -/
def execOrrm (sr d : Reg) (s : State) : Outcome := logicReg .or sr d (s.reg 4) s

def execEomb (r : Reg) (m : MemRef 19) (s : State) : Outcome := withOperand m.ofByte.word (logicMembers .xor r) s
def execEomh (r : Reg) (m : MemRef 18) (s : State) : Outcome := withOperand m.ofHalf.word (logicMembers .xor r) s
def execEomw (r : Reg) (m : MemRef 17) (s : State) : Outcome := withOperand m.ofWord.word (logicMembers .xor r) s
def execEomd (r : Reg) (m : MemRef 17) (s : State) : Outcome := withOperand m.ofDouble.word (logicMembers .xor r) s
def execEor (sr d : Reg) (s : State) : Outcome := logicReg .xor sr d 0xFFFFFFFF s

/-- EORM: masked by R4 (R357). -/
def execEorm (sr d : Reg) (s : State) : Outcome := logicReg .xor sr d (s.reg 4) s

end Sys2Proof.Machine
end

