-- ==== Sys2Proof/Machine/MemoryManagement.lean ====
section
/-! DEFINITION. Memory Management (42_memory_management.md R270 to R274). -/

namespace Sys2Proof.Machine

/-- The ordinary trap of a memory error on an operand (20_memory.md R110, R111). -/
def MemError.trap : MemError → Trap
  | .nonpresent => .nonpresent false
  | .parity => .memoryParity false

/-- SEA (R270). -/
def execSea (s : State) : Outcome := .next { s with ext := true }

/-- CEA (R271). -/
def execCea (s : State) : Outcome := .next { s with ext := false }

/-- An instruction that requires the processor to be unmapped: else a System Check with status bit 20 (R272, D10).
-/
def unmappedOnly (s : State) (k : Outcome) : Outcome := if s.mapped then raise (.systemCheck true) s else k

/-- The map load of LMAP for PSD word 2 `p2`: bits 32-33 and 47 are ignored, the errors are the ordinary traps
(R272). Where a trap ends the walk midway, MAP stays cleared and loaded as far as it went, in the order of R102's
steps: DESIGN CHOICE, for 20_memory.md R110 lets a faulting instruction write no register (log 42). -/
def loadMap (p2 : Word) (s : State) : Outcome :=
  let m := s.mapWalk p2
  let s1 := { m.state with map := m.map, stopHit := s.stopHit || m.hit }
  match m.error with
  | none => .next s1
  | some .overflow => raise (.mapFault true) s1
  | some (.memory e) => raise e.trap s1

/-- LMAP (R272): PSD word 2 is read at the real address in Rd plus four, then the walk. -/
def execLmap (d : Reg) (s : State) : Outcome :=
  psdOnly s (privileged s (unmappedOnly s (
    match s.transact.realRead ((s.reg d).extractLsb' 0 24 + 4) with
    | .error e => raise e.trap s.transact
    | .ok p2 => loadMap p2 (s.transact.noteRead ((s.reg d).extractLsb' 0 24 + 4)))))

/-- A pair of map registers as one word (10_state.md R45). -/
def State.mapPair (s : State) (k : BitVec 4) : Word :=
  s.map[(k ++ 0#1).toNat]'(k ++ 0#1).isLt ++ s.map[(k ++ 1#1).toNat]'(k ++ 1#1).isLt

/-- TMAPR (R273): bits 27-30 of Rs name the pair, every other bit is ignored. -/
def execTmapr (sr d : Reg) (s : State) : Outcome :=
  psdOnly s (privileged s (unmappedOnly s (.next (s.setReg d (s.mapPair ((s.reg sr).extractLsb' 1 4))))))

end Sys2Proof.Machine
end

