-- ==== Sys2Proof/Machine/RegisterTransfer.lean ====
section
/-! DEFINITION. Register Transfer (41_register_transfer.md R250 to R264). The mask register is R4. -/

namespace Sys2Proof.Machine

/-- A register receives a value; CC1 is zero and CC2 to CC4 its sign (R253). -/
def transfer (d : Reg) (v : Word) (s : State) : State := (s.setReg d v).setCc (ccOf false v)

/-- A negation: overflow of the negation in CC1, the sign of what is delivered in CC2 to CC4 (R257, R258). -/
def transferNegative (d : Reg) (a mask : Word) (s : State) : State :=
  (s.setReg d ((0 - a) &&& mask)).setArith (negOverflow a) ((0 - a) &&& mask)

/-- An exchange: both values are read first, the condition code is that of the original destination (R261, R262). -/
def exchange (sr d : Reg) (a b : Word) (s : State) : State := ((s.setReg d a).setReg sr b).setCc (ccOf false b)

/-- TSCR (R251). -/
def execTscr (sr d : Reg) (s : State) : Outcome :=
  privileged s (.next (s.setReg d (s.spad[((s.reg sr).extractLsb' 16 8).toNat]'((s.reg sr).extractLsb' 16 8).isLt)))

/-- TRSC (R252): writing cell X'91' replaces the status word, mode bits included. -/
def execTrsc (sr d : Reg) (s : State) : Outcome :=
  privileged s (.next { s with
    spad := s.spad.set ((s.reg d).extractLsb' 16 8).toNat (s.reg sr) ((s.reg d).extractLsb' 16 8).isLt })

/-- TRR (R253). -/
def execTrr (sr d : Reg) (s : State) : Outcome := .next (transfer d (s.reg sr) s)

/-- TRRM (R254). -/
def execTrrm (sr d : Reg) (s : State) : Outcome := .next (transfer d (s.reg sr &&& s.reg 4) s)

/-- TRP (R255), privileged (D9). -/
def execTrp (p : BitVec 4) (r : Reg) (s : State) : Outcome :=
  privileged s (.next { s with prot := s.prot.set p.toNat ((s.reg r).extractLsb' 0 16) p.isLt })

/-- TPR (R256): zero filled (D9). -/
def execTpr (p : BitVec 4) (r : Reg) (s : State) : Outcome :=
  .next (s.setReg r (BitVec.zeroExtend 32 (s.prot[p.toNat]'p.isLt)))

/-- TRN (R257). -/
def execTrn (sr d : Reg) (s : State) : Outcome := .next (transferNegative d (s.reg sr) 0xFFFFFFFF s)

/-- TRNM (R258). -/
def execTrnm (sr d : Reg) (s : State) : Outcome := .next (transferNegative d (s.reg sr) (s.reg 4) s)

/-- TRC (R259). -/
def execTrc (sr d : Reg) (s : State) : Outcome := .next (transfer d (~~~s.reg sr) s)

/-- TRCM (R260). -/
def execTrcm (sr d : Reg) (s : State) : Outcome := .next (transfer d (~~~s.reg sr &&& s.reg 4) s)

/-- XCR (R261). -/
def execXcr (sr d : Reg) (s : State) : Outcome := .next (exchange sr d (s.reg sr) (s.reg d) s)

/-- XCRM (R262): the mask is read before the writes. -/
def execXcrm (sr d : Reg) (s : State) : Outcome :=
  .next (exchange sr d (s.reg sr &&& s.reg 4) (s.reg d &&& s.reg 4) s)

/-- TRSW (R263): bits 1-4 and 13-30 of the PSW; bits 0 and 5-12 are unchanged. -/
def execTrsw (sr : Reg) (s : State) : Outcome :=
  .next { s with cc := (s.reg sr).extractLsb' 27 4, pc := (s.reg sr).extractLsb' 1 18 }

end Sys2Proof.Machine
end

