-- ==== Sys2Proof/Machine/Shift.lean ====
section
/-! DEFINITION. Shift (47_shift.md R370 to R383). -/

namespace Sys2Proof.Machine

/-- Whether manual bits 0-4 of an `n`-bit value are all equal: not yet normalized (R371). -/
def leadingEqual {n : Nat} (v : BitVec n) : Bool :=
  decide (v.extractLsb' (n - 5) 5 = 0#5) || decide (v.extractLsb' (n - 5) 5 = 31#5)

/-- Shift left by hexadecimal digits until normalized; the second result counts the shifts (R371). -/
def normalizeDigits {n : Nat} : Nat → BitVec n → Nat → BitVec n × Nat
  | 0, v, k => (v, k)
  | f + 1, v, k => if leadingEqual v then normalizeDigits f (v <<< 4) (k + 1) else (v, k)

/-- NOR and NORD on a value: what is left in the operand and the exponent (R371, R372). -/
def normalized {n : Nat} (v : BitVec n) : BitVec n × Word :=
  if v = 0 then (v, 0)
  else
    let p := normalizeDigits (n / 4) v 0
    (p.1, BitVec.zeroExtend 32 (BitVec.ofNat 7 (0x40 - p.2)))

/-- Leading zeros among the low `k` bits. -/
def leadingZeros (v : Word) : Nat → Nat
  | 0 => 0
  | k + 1 => if v.getLsbD k then 0 else leadingZeros v k + 1

/-- NOR (R371): the exponent is written last (D27). -/
def execNor (sr d : Reg) (s : State) : Outcome :=
  .next ((s.setReg sr (normalized (s.reg sr)).1).setReg d (normalized (s.reg sr)).2)

/-- NORD (R372). -/
def execNord (sr d : Reg) (s : State) : Outcome :=
  .next ((s.setRegPair sr (normalized (s.regPair sr)).1).setReg d (normalized (s.regPair sr)).2)

/-- SCZ's count: the number of leading zeros, zero when the operand is zero (R373). -/
def scanCount (v : Word) : Nat := if v = 0 then 0 else leadingZeros v 32

/-- SCZ's shifted operand: the leading one is shifted out as well (R373). -/
def scanShift (v : Word) : Word := if v = 0 then v else v <<< (leadingZeros v 32 + 1)

/-- SCZ (R373): the count is written last. -/
def execScz (sr d : Reg) (s : State) : Outcome :=
  .next (((s.setReg sr (scanShift (s.reg sr))).setReg d (BitVec.ofNat 32 (scanCount (s.reg sr)))).setCc
    (ccZero (s.reg sr)))

/-- Whether a bit shifted out of position 1 differs from the sign (R374, R377). -/
def shiftOverflow {n : Nat} (v : BitVec n) (k : Nat) : Bool :=
  decide (v.sshiftRight (n - 1 - k) ≠ v.sshiftRight (n - 1))

/-- CC of SLA and SLAD: (ae, 0, 0, 0), and the arithmetic exception (R374). -/
def State.shiftArith (s : State) (ae : Bool) : State := (s.setCc (ccBits ae false false false)).arithException ae

/-- SLA's result: the sign kept, zeros entering at bit 31 (R374). -/
def shiftLeftArith (v : Word) (k : Nat) : Word := BitVec.ofBool (v.getLsbD 31) ++ v.extractLsb' 0 31 <<< k

/-- SLAD's result (R377). -/
def shiftLeftArithDouble (v : Double) (k : Nat) : Double := BitVec.ofBool (v.getLsbD 63) ++ v.extractLsb' 0 63 <<< k

/-- SLA (R374). -/
def execSla (r : Reg) (n : BitVec 5) (s : State) : Outcome :=
  .next ((s.setReg r (shiftLeftArith (s.reg r) n.toNat)).shiftArith (shiftOverflow (s.reg r) n.toNat))

/-- SLL (R375). -/
def execSll (r : Reg) (n : BitVec 5) (s : State) : Outcome := .next (s.setReg r (s.reg r <<< n.toNat))

/-- SLC (R376). -/
def execSlc (r : Reg) (n : BitVec 5) (s : State) : Outcome := .next (s.setReg r ((s.reg r).rotateLeft n.toNat))

/-- SLAD (R377). -/
def execSlad (r : Reg) (n : BitVec 5) (s : State) : Outcome :=
  .next ((s.setRegPair r (shiftLeftArithDouble (s.regPair r) n.toNat)).shiftArith
    (shiftOverflow (s.regPair r) n.toNat))

/-- SLLD (R378). -/
def execSlld (r : Reg) (n : BitVec 5) (s : State) : Outcome := .next (s.setRegPair r (s.regPair r <<< n.toNat))

/-- SRA (R379). -/
def execSra (r : Reg) (n : BitVec 5) (s : State) : Outcome := .next (s.setReg r ((s.reg r).sshiftRight n.toNat))

/-- SRL (R380). -/
def execSrl (r : Reg) (n : BitVec 5) (s : State) : Outcome := .next (s.setReg r (s.reg r >>> n.toNat))

/-- SRC (R381). -/
def execSrc (r : Reg) (n : BitVec 5) (s : State) : Outcome := .next (s.setReg r ((s.reg r).rotateRight n.toNat))

/-- SRAD (R382). -/
def execSrad (r : Reg) (n : BitVec 5) (s : State) : Outcome :=
  .next (s.setRegPair r ((s.regPair r).sshiftRight n.toNat))

/-- SRLD (R383). -/
def execSrld (r : Reg) (n : BitVec 5) (s : State) : Outcome := .next (s.setRegPair r (s.regPair r >>> n.toNat))

end Sys2Proof.Machine
end

