-- ==== Sys2Proof/Machine/Wcs.lean ====
section
/-! DEFINITION. Writable Control Storage (43_wcs.md R280 to R284). -/

namespace Sys2Proof.Machine

/-- The WCS word at an address; an unlisted word is zero (log 4). -/
def Wcs.read : List (Nat × Double) → Nat → Double
  | [], _ => 0
  | (k, v) :: t, a => if a = k then v else if a < k then 0 else Wcs.read t a

/-- WCS with one word written, in the canonical form of memory. -/
def Wcs.write : List (Nat × Double) → Nat → Double → List (Nat × Double)
  | [], a, b => if b = 0 then [] else [(a, b)]
  | (k, v) :: t, a, b =>
    if a = k then (if b = 0 then t else (a, b) :: t)
    else if a < k then (if b = 0 then (k, v) :: t else (a, b) :: (k, v) :: t)
    else (k, v) :: Wcs.write t a b

/-- Addresses strictly rising from `lo`, and no zero word listed. -/
def Wcs.wfFrom : Nat → List (Nat × Double) → Bool
  | _, [] => true
  | lo, (k, v) :: t => decide (lo ≤ k) && decide (v ≠ 0) && Wcs.wfFrom (k + 1) t

/-- The canonical form of WCS. -/
def Wcs.wf (m : List (Nat × Double)) : Bool := Wcs.wfFrom 0 m

/-- The logical word address a register holds; F and C bits are ignored (R281). -/
def State.registerWordAddr (s : State) (v : Word) : Addr :=
  wordAddr (if s.ext then v.extractLsb' 0 24 else BitVec.zeroExtend 24 (v.extractLsb' 0 19))

/-- "CPU WCS not present error", status bit 22. R281 and R283 set it without naming a role; on an IPU 10_state.md R51 and
the spec's decision D8 call the bit "not used", and the model sets none there (log 36). -/
def State.wcsError (s : State) : State :=
  match s.cfg.role with
  | .cpu => s.orStatus (statusBit 22)
  | .ipu => s

/-- The error of WWCS and RWCS: CC1 is set, status bit 22, Undefined Instruction, nothing transferred (R281, D11). -/
def wcsAbsent (s : State) : Outcome := raise .undefined (s.setCc 0b1000).wcsError

/-- Whether an address is one of the installed WCS words (D11). -/
def State.wcsPresent (s : State) (a : Word) : Bool := decide (a.toNat < s.cfg.wcsBoards.words)

/-- WWCS (R281): Rd holds the WCS address, Rs the memory address. -/
def execWwcs (sr d : Reg) (s : State) : Outcome :=
  privileged s (
    if s.wcsPresent (s.reg d) then
      (s.load32 (s.registerWordAddr (s.reg sr))).finish fun hi s1 =>
        (s1.load32 (s.nextWord (s.registerWordAddr (s.reg sr)))).finish fun lo s2 =>
          .next { s2 with wcs := Wcs.write s2.wcs (s.reg d).toNat (hi ++ lo), cc := 0 }
    else wcsAbsent s)

/-- RWCS (R282): Rs holds the WCS address, Rd the memory address. -/
def execRwcs (sr d : Reg) (s : State) : Outcome :=
  privileged s (
    if s.wcsPresent (s.reg sr) then
      let w := Wcs.read s.wcs (s.reg sr).toNat
      (s.store32 (s.registerWordAddr (s.reg d)) (w.extractLsb' 32 32)).finish fun _ s1 =>
        (s1.store32 (s.nextWord (s.registerWordAddr (s.reg d))) (w.extractLsb' 0 32)).finish fun _ s2 =>
          .next (s2.setCc 0)
    else wcsAbsent s)

/-- Bytes of memory a WCS routine wrote, each compared with the Operand Write Stop (70_reset_and_hazards.md R734). -/
def State.pokeAll : List (Addr × Byte) → State → State
  | [], s => s
  | (a, b) :: t, s => State.pokeAll t ((s.poke8 a b).noteWrite a)

/-- What a WCS routine leaves is a free value (R283; log 11). -/
def State.runWcs (s : State) (entry : BitVec 6) : State :=
  let e := Config.wcsRoutine entry s
  State.pokeAll e.writes { s with regs := e.regs, cc := e.cc }

/-- JWCS (R283): "only the least significant 6 bits of the Effective Address are used". -/
def execJwcs (m : MemRef 20) (s : State) : Outcome :=
  if s.cfg.wcsBoards = .none then raise .undefined s.wcsError
  else (s.effective m.word).finish fun e s1 => .next (s1.runWcs (e.ea.extractLsb' 0 6))

end Sys2Proof.Machine
end

