-- ==== Sys2Proof/Machine/Execute.lean ====
section
/-! DEFINITION. The Execute instructions (51_control.md R505 to R508): the target is an instruction like any other, with
the program counter after the Execute. -/

namespace Sys2Proof.Machine

/-- The target's own meaning, with `EXEC_DEPTH` = 1. Refused targets, Undefined Instruction (R505, D13): another Execute,
RDSTS, and the instructions of PSD mode alone (30_encoding.md R170). -/
def runTarget (i : Instr) (s : State) : Outcome :=
  match i with
  | .lb r m => execLb r m s
  | .lh r m => execLh r m s
  | .lw r m => execLw r m s
  | .ld r m => execLd r m s
  | .lmb r m => execLmb r m s
  | .lmh r m => execLmh r m s
  | .lmw r m => execLmw r m s
  | .lmd r m => execLmd r m s
  | .lnb r m => execLnb r m s
  | .lnh r m => execLnh r m s
  | .lnw r m => execLnw r m s
  | .lnd r m => execLnd r m s
  | .li r v => execLi r v s
  | .lea r m => execLea r m s
  | .lear _ _ => raise .undefined s
  | .la _ _ => raise .undefined s
  | .lf r m => execLf r m s
  | .stb r m => execStb r m s
  | .sth r m => execSth r m s
  | .stw r m => execStw r m s
  | .std r m => execStd r m s
  | .stmb r m => execStmb r m s
  | .stmh r m => execStmh r m s
  | .stmw r m => execStmw r m s
  | .stmd r m => execStmd r m s
  | .stf r m => execStf r m s
  | .zmb m => execZmb m s
  | .zmh m => execZmh m s
  | .zmw m => execZmw m s
  | .zmd m => execZmd m s
  | .zr d => execZr d s
  | .tscr sr d => execTscr sr d s
  | .trsc sr d => execTrsc sr d s
  | .trr sr d => execTrr sr d s
  | .trrm sr d => execTrrm sr d s
  | .trp p r => execTrp p r s
  | .tpr p r => execTpr p r s
  | .trn sr d => execTrn sr d s
  | .trnm sr d => execTrnm sr d s
  | .trc sr d => execTrc sr d s
  | .trcm sr d => execTrcm sr d s
  | .xcr sr d => execXcr sr d s
  | .xcrm sr d => execXcrm sr d s
  | .trsw sr => execTrsw sr s
  | .sea => execSea s
  | .cea => execCea s
  | .lmap _ => raise .undefined s
  | .tmapr _ _ => raise .undefined s
  | .wwcs sr d => execWwcs sr d s
  | .rwcs sr d => execRwcs sr d s
  | .jwcs m => execJwcs m s
  | .bu m => execBu m s
  | .bct c m => execBct c m s
  | .bcf c m => execBcf c m s
  | .bft m => execBft m s
  | .bl m => execBl m s
  | .bib r ind a => execBib r ind a s
  | .bih r ind a => execBih r ind a s
  | .biw r ind a => execBiw r ind a s
  | .bid r ind a => execBid r ind a s
  | .camb r m => execCamb r m s
  | .camh r m => execCamh r m s
  | .camw r m => execCamw r m s
  | .camd r m => execCamd r m s
  | .car sr d => execCar sr d s
  | .ci r v => execCi r v s
  | .cmmb r m => execCmmb r m s
  | .cmmh r m => execCmmh r m s
  | .cmmw r m => execCmmw r m s
  | .cmmd r m => execCmmd r m s
  | .cmr sr d => execCmr sr d s
  | .anmb r m => execAnmb r m s
  | .anmh r m => execAnmh r m s
  | .anmw r m => execAnmw r m s
  | .anmd r m => execAnmd r m s
  | .anr sr d => execAnr sr d s
  | .ormb r m => execOrmb r m s
  | .ormh r m => execOrmh r m s
  | .ormw r m => execOrmw r m s
  | .ormd r m => execOrmd r m s
  | .orr sr d => execOrr sr d s
  | .orrm sr d => execOrrm sr d s
  | .eomb r m => execEomb r m s
  | .eomh r m => execEomh r m s
  | .eomw r m => execEomw r m s
  | .eomd r m => execEomd r m s
  | .eor sr d => execEor sr d s
  | .eorm sr d => execEorm sr d s
  | .nor sr d => execNor sr d s
  | .nord sr d => execNord sr d s
  | .scz sr d => execScz sr d s
  | .sla r n => execSla r n s
  | .sll r n => execSll r n s
  | .slc r n => execSlc r n s
  | .slad r n => execSlad r n s
  | .slld r n => execSlld r n s
  | .sra r n => execSra r n s
  | .srl r n => execSrl r n s
  | .src r n => execSrc r n s
  | .srad r n => execSrad r n s
  | .srld r n => execSrld r n s
  | .sbm c m => execSbm c m s
  | .sbr c r b => execSbr c r b s
  | .zbm c m => execZbm c m s
  | .zbr c r b => execZbr c r b s
  | .abm c m => execAbm c m s
  | .abr c r b => execAbr c r b s
  | .tbm c m => execTbm c m s
  | .tbr c r b => execTbr c r b s
  | .admb r m => execAdmb r m s
  | .admh r m => execAdmh r m s
  | .admw r m => execAdmw r m s
  | .admd r m => execAdmd r m s
  | .adr sr d => execAdr sr d s
  | .adrm sr d => execAdrm sr d s
  | .armb r m => execArmb r m s
  | .armh r m => execArmh r m s
  | .armw r m => execArmw r m s
  | .armd r m => execArmd r m s
  | .adi r v => execAdi r v s
  | .sumb r m => execSumb r m s
  | .sumh r m => execSumh r m s
  | .sumw r m => execSumw r m s
  | .sumd r m => execSumd r m s
  | .sur sr d => execSur sr d s
  | .surm sr d => execSurm sr d s
  | .sui r v => execSui r v s
  | .mpmb r m => execMpmb r m s
  | .mpmh r m => execMpmh r m s
  | .mpmw r m => execMpmw r m s
  | .mpr sr d => execMpr sr d s
  | .mpi r v => execMpi r v s
  | .dvmb r m => execDvmb r m s
  | .dvmh r m => execDvmh r m s
  | .dvmw r m => execDvmw r m s
  | .dvr sr d => execDvr sr d s
  | .dvi r v => execDvi r v s
  | .es d => execEs d s
  | .rnd d => execRnd d s
  | .adfw r m => execAdfw r m s
  | .adfd r m => execAdfd r m s
  | .sufw r m => execSufw r m s
  | .sufd r m => execSufd r m s
  | .mpfw r m => execMpfw r m s
  | .mpfd r m => execMpfd r m s
  | .dvfw r m => execDvfw r m s
  | .dvfd r m => execDvfd r m s
  | .bri m => execBri m s
  | .lpsd _ => raise .undefined s
  | .lcs d => execLcs d s
  | .lpsdcm _ => raise .undefined s
  | .exr _ => raise .undefined s
  | .exrr _ => raise .undefined s
  | .exm _ => raise .undefined s
  | .halt => execHalt s
  | .wait => execWait s
  | .nop => execNop s
  | .sipu => execSipu s
  | .calm flags => execCalm flags s
  | .svc _ _ => raise .undefined s
  | .setcpu sr => execSetcpu sr s
  | .rdsts _ => raise .undefined s
  | .eae => raise .undefined s
  | .dae => raise .undefined s
  | .ei l => execEi l s
  | .di l => execDi l s
  | .ri l => execRi l s
  | .ai l => execAi l s
  | .dai l => execDai l s
  | .eci _ _ => raise .undefined s
  | .dci _ _ => raise .undefined s
  | .aci _ _ => raise .undefined s
  | .daci _ _ => raise .undefined s
  | .bei => raise .undefined s
  | .uei => raise .undefined s
  | .cd n f => execCd n f s
  | .td n f => execTd n f s
  | .sio _ _ => raise .undefined s
  | .tio _ _ => raise .undefined s
  | .stpio _ _ => raise .undefined s
  | .rschnl _ _ => raise .undefined s
  | .hio _ _ => raise .undefined s
  | .grio _ _ => raise .undefined s
  | .rsctl _ _ => raise .undefined s
  | .ecwcs _ _ => raise .undefined s
  | .wcwcs _ _ => raise .undefined s

/-- `EXEC_DEPTH` is 0 between instructions (10_state.md R60). -/
def leaveExecute : Outcome → Outcome
  | .next s => .next { s with execDepth := false }
  | .fault f => .fault f
  | .refused r => .refused r

/-- `execute_target(iw)` (R505). -/
def executeTarget (c : Code) (s : State) : Outcome :=
  match decode c with
  | none => raise .undefined s
  | some i => leaveExecute (runTarget i { s with execDepth := true })

/-- The target in the left position: a halfword, or the whole word (R506, R508). -/
def executeLeft (w : Word) (s : State) : Outcome :=
  if isHalfword (w.extractLsb' 16 16) then executeTarget (.half (w.extractLsb' 16 16)) s else executeTarget (.word w) s

/-- The target in the right halfword; the first half of a word instruction is undefined there (R507, D13). -/
def executeRight (w : Word) (s : State) : Outcome :=
  if isHalfword (w.extractLsb' 0 16) then executeTarget (.half (w.extractLsb' 0 16)) s else raise .undefined s

/-- EXR (R506). -/
def execExr (sr : Reg) (s : State) : Outcome := executeLeft (s.reg sr) s

/-- EXRR (R507). -/
def execExrr (sr : Reg) (s : State) : Outcome := executeRight (s.reg sr) s

/-- EXM (R508): the target word is read as an operand, and bit 30 of the effective address selects the halfword. -/
def execExm (m : MemRef 19) (s : State) : Outcome :=
  (s.effective (m.ofFixed false).word).finish fun e s1 =>
    (s1.load32 (wordAddr e.ea)).finish fun w s2 => if e.ea.getLsbD 1 then executeRight w s2 else executeLeft w s2

end Sys2Proof.Machine
end

