-- ==== Sys2Proof/Machine/Dispatch.lean ====
section
/-! DEFINITION. One arm per constructor of Instr. -/

namespace Sys2Proof.Machine

def exec (i : Instr) (s : State) : Host.Outcome State Fault Refusal :=
  match i with
  | .lb r m => Sys2Proof.Machine.execLb r m s
  | .lh r m => Sys2Proof.Machine.execLh r m s
  | .lw r m => Sys2Proof.Machine.execLw r m s
  | .ld r m => Sys2Proof.Machine.execLd r m s
  | .lmb r m => Sys2Proof.Machine.execLmb r m s
  | .lmh r m => Sys2Proof.Machine.execLmh r m s
  | .lmw r m => Sys2Proof.Machine.execLmw r m s
  | .lmd r m => Sys2Proof.Machine.execLmd r m s
  | .lnb r m => Sys2Proof.Machine.execLnb r m s
  | .lnh r m => Sys2Proof.Machine.execLnh r m s
  | .lnw r m => Sys2Proof.Machine.execLnw r m s
  | .lnd r m => Sys2Proof.Machine.execLnd r m s
  | .li r v => Sys2Proof.Machine.execLi r v s
  | .lea r m => Sys2Proof.Machine.execLea r m s
  | .lear r m => Sys2Proof.Machine.execLear r m s
  | .la r m => Sys2Proof.Machine.execLa r m s
  | .lf r m => Sys2Proof.Machine.execLf r m s
  | .stb r m => Sys2Proof.Machine.execStb r m s
  | .sth r m => Sys2Proof.Machine.execSth r m s
  | .stw r m => Sys2Proof.Machine.execStw r m s
  | .std r m => Sys2Proof.Machine.execStd r m s
  | .stmb r m => Sys2Proof.Machine.execStmb r m s
  | .stmh r m => Sys2Proof.Machine.execStmh r m s
  | .stmw r m => Sys2Proof.Machine.execStmw r m s
  | .stmd r m => Sys2Proof.Machine.execStmd r m s
  | .stf r m => Sys2Proof.Machine.execStf r m s
  | .zmb m => Sys2Proof.Machine.execZmb m s
  | .zmh m => Sys2Proof.Machine.execZmh m s
  | .zmw m => Sys2Proof.Machine.execZmw m s
  | .zmd m => Sys2Proof.Machine.execZmd m s
  | .zr d => Sys2Proof.Machine.execZr d s
  | .tscr sr d => Sys2Proof.Machine.execTscr sr d s
  | .trsc sr d => Sys2Proof.Machine.execTrsc sr d s
  | .trr sr d => Sys2Proof.Machine.execTrr sr d s
  | .trrm sr d => Sys2Proof.Machine.execTrrm sr d s
  | .trp p r => Sys2Proof.Machine.execTrp p r s
  | .tpr p r => Sys2Proof.Machine.execTpr p r s
  | .trn sr d => Sys2Proof.Machine.execTrn sr d s
  | .trnm sr d => Sys2Proof.Machine.execTrnm sr d s
  | .trc sr d => Sys2Proof.Machine.execTrc sr d s
  | .trcm sr d => Sys2Proof.Machine.execTrcm sr d s
  | .xcr sr d => Sys2Proof.Machine.execXcr sr d s
  | .xcrm sr d => Sys2Proof.Machine.execXcrm sr d s
  | .trsw sr => Sys2Proof.Machine.execTrsw sr s
  | .sea => Sys2Proof.Machine.execSea s
  | .cea => Sys2Proof.Machine.execCea s
  | .lmap d => Sys2Proof.Machine.execLmap d s
  | .tmapr sr d => Sys2Proof.Machine.execTmapr sr d s
  | .wwcs sr d => Sys2Proof.Machine.execWwcs sr d s
  | .rwcs sr d => Sys2Proof.Machine.execRwcs sr d s
  | .jwcs m => Sys2Proof.Machine.execJwcs m s
  | .bu m => Sys2Proof.Machine.execBu m s
  | .bct c m => Sys2Proof.Machine.execBct c m s
  | .bcf c m => Sys2Proof.Machine.execBcf c m s
  | .bft m => Sys2Proof.Machine.execBft m s
  | .bl m => Sys2Proof.Machine.execBl m s
  | .bib r ind a => Sys2Proof.Machine.execBib r ind a s
  | .bih r ind a => Sys2Proof.Machine.execBih r ind a s
  | .biw r ind a => Sys2Proof.Machine.execBiw r ind a s
  | .bid r ind a => Sys2Proof.Machine.execBid r ind a s
  | .camb r m => Sys2Proof.Machine.execCamb r m s
  | .camh r m => Sys2Proof.Machine.execCamh r m s
  | .camw r m => Sys2Proof.Machine.execCamw r m s
  | .camd r m => Sys2Proof.Machine.execCamd r m s
  | .car sr d => Sys2Proof.Machine.execCar sr d s
  | .ci r v => Sys2Proof.Machine.execCi r v s
  | .cmmb r m => Sys2Proof.Machine.execCmmb r m s
  | .cmmh r m => Sys2Proof.Machine.execCmmh r m s
  | .cmmw r m => Sys2Proof.Machine.execCmmw r m s
  | .cmmd r m => Sys2Proof.Machine.execCmmd r m s
  | .cmr sr d => Sys2Proof.Machine.execCmr sr d s
  | .anmb r m => Sys2Proof.Machine.execAnmb r m s
  | .anmh r m => Sys2Proof.Machine.execAnmh r m s
  | .anmw r m => Sys2Proof.Machine.execAnmw r m s
  | .anmd r m => Sys2Proof.Machine.execAnmd r m s
  | .anr sr d => Sys2Proof.Machine.execAnr sr d s
  | .ormb r m => Sys2Proof.Machine.execOrmb r m s
  | .ormh r m => Sys2Proof.Machine.execOrmh r m s
  | .ormw r m => Sys2Proof.Machine.execOrmw r m s
  | .ormd r m => Sys2Proof.Machine.execOrmd r m s
  | .orr sr d => Sys2Proof.Machine.execOrr sr d s
  | .orrm sr d => Sys2Proof.Machine.execOrrm sr d s
  | .eomb r m => Sys2Proof.Machine.execEomb r m s
  | .eomh r m => Sys2Proof.Machine.execEomh r m s
  | .eomw r m => Sys2Proof.Machine.execEomw r m s
  | .eomd r m => Sys2Proof.Machine.execEomd r m s
  | .eor sr d => Sys2Proof.Machine.execEor sr d s
  | .eorm sr d => Sys2Proof.Machine.execEorm sr d s
  | .nor sr d => Sys2Proof.Machine.execNor sr d s
  | .nord sr d => Sys2Proof.Machine.execNord sr d s
  | .scz sr d => Sys2Proof.Machine.execScz sr d s
  | .sla r n => Sys2Proof.Machine.execSla r n s
  | .sll r n => Sys2Proof.Machine.execSll r n s
  | .slc r n => Sys2Proof.Machine.execSlc r n s
  | .slad r n => Sys2Proof.Machine.execSlad r n s
  | .slld r n => Sys2Proof.Machine.execSlld r n s
  | .sra r n => Sys2Proof.Machine.execSra r n s
  | .srl r n => Sys2Proof.Machine.execSrl r n s
  | .src r n => Sys2Proof.Machine.execSrc r n s
  | .srad r n => Sys2Proof.Machine.execSrad r n s
  | .srld r n => Sys2Proof.Machine.execSrld r n s
  | .sbm c m => Sys2Proof.Machine.execSbm c m s
  | .sbr c r b => Sys2Proof.Machine.execSbr c r b s
  | .zbm c m => Sys2Proof.Machine.execZbm c m s
  | .zbr c r b => Sys2Proof.Machine.execZbr c r b s
  | .abm c m => Sys2Proof.Machine.execAbm c m s
  | .abr c r b => Sys2Proof.Machine.execAbr c r b s
  | .tbm c m => Sys2Proof.Machine.execTbm c m s
  | .tbr c r b => Sys2Proof.Machine.execTbr c r b s
  | .admb r m => Sys2Proof.Machine.execAdmb r m s
  | .admh r m => Sys2Proof.Machine.execAdmh r m s
  | .admw r m => Sys2Proof.Machine.execAdmw r m s
  | .admd r m => Sys2Proof.Machine.execAdmd r m s
  | .adr sr d => Sys2Proof.Machine.execAdr sr d s
  | .adrm sr d => Sys2Proof.Machine.execAdrm sr d s
  | .armb r m => Sys2Proof.Machine.execArmb r m s
  | .armh r m => Sys2Proof.Machine.execArmh r m s
  | .armw r m => Sys2Proof.Machine.execArmw r m s
  | .armd r m => Sys2Proof.Machine.execArmd r m s
  | .adi r v => Sys2Proof.Machine.execAdi r v s
  | .sumb r m => Sys2Proof.Machine.execSumb r m s
  | .sumh r m => Sys2Proof.Machine.execSumh r m s
  | .sumw r m => Sys2Proof.Machine.execSumw r m s
  | .sumd r m => Sys2Proof.Machine.execSumd r m s
  | .sur sr d => Sys2Proof.Machine.execSur sr d s
  | .surm sr d => Sys2Proof.Machine.execSurm sr d s
  | .sui r v => Sys2Proof.Machine.execSui r v s
  | .mpmb r m => Sys2Proof.Machine.execMpmb r m s
  | .mpmh r m => Sys2Proof.Machine.execMpmh r m s
  | .mpmw r m => Sys2Proof.Machine.execMpmw r m s
  | .mpr sr d => Sys2Proof.Machine.execMpr sr d s
  | .mpi r v => Sys2Proof.Machine.execMpi r v s
  | .dvmb r m => Sys2Proof.Machine.execDvmb r m s
  | .dvmh r m => Sys2Proof.Machine.execDvmh r m s
  | .dvmw r m => Sys2Proof.Machine.execDvmw r m s
  | .dvr sr d => Sys2Proof.Machine.execDvr sr d s
  | .dvi r v => Sys2Proof.Machine.execDvi r v s
  | .es d => Sys2Proof.Machine.execEs d s
  | .rnd d => Sys2Proof.Machine.execRnd d s
  | .adfw r m => Sys2Proof.Machine.execAdfw r m s
  | .adfd r m => Sys2Proof.Machine.execAdfd r m s
  | .sufw r m => Sys2Proof.Machine.execSufw r m s
  | .sufd r m => Sys2Proof.Machine.execSufd r m s
  | .mpfw r m => Sys2Proof.Machine.execMpfw r m s
  | .mpfd r m => Sys2Proof.Machine.execMpfd r m s
  | .dvfw r m => Sys2Proof.Machine.execDvfw r m s
  | .dvfd r m => Sys2Proof.Machine.execDvfd r m s
  | .bri m => Sys2Proof.Machine.execBri m s
  | .lpsd m => Sys2Proof.Machine.execLpsd m s
  | .lcs d => Sys2Proof.Machine.execLcs d s
  | .lpsdcm m => Sys2Proof.Machine.execLpsdcm m s
  | .exr sr => Sys2Proof.Machine.execExr sr s
  | .exrr sr => Sys2Proof.Machine.execExrr sr s
  | .exm m => Sys2Proof.Machine.execExm m s
  | .halt => Sys2Proof.Machine.execHalt s
  | .wait => Sys2Proof.Machine.execWait s
  | .nop => Sys2Proof.Machine.execNop s
  | .sipu => Sys2Proof.Machine.execSipu s
  | .calm flags => Sys2Proof.Machine.execCalm flags s
  | .svc ix call => Sys2Proof.Machine.execSvc ix call s
  | .setcpu sr => Sys2Proof.Machine.execSetcpu sr s
  | .rdsts d => Sys2Proof.Machine.execRdsts d s
  | .eae => Sys2Proof.Machine.execEae s
  | .dae => Sys2Proof.Machine.execDae s
  | .ei l => Sys2Proof.Machine.execEi l s
  | .di l => Sys2Proof.Machine.execDi l s
  | .ri l => Sys2Proof.Machine.execRi l s
  | .ai l => Sys2Proof.Machine.execAi l s
  | .dai l => Sys2Proof.Machine.execDai l s
  | .eci r k => Sys2Proof.Machine.execEci r k s
  | .dci r k => Sys2Proof.Machine.execDci r k s
  | .aci r k => Sys2Proof.Machine.execAci r k s
  | .daci r k => Sys2Proof.Machine.execDaci r k s
  | .bei => Sys2Proof.Machine.execBei s
  | .uei => Sys2Proof.Machine.execUei s
  | .cd n f => Sys2Proof.Machine.execCd n f s
  | .td n f => Sys2Proof.Machine.execTd n f s
  | .sio r k => Sys2Proof.Machine.execSio r k s
  | .tio r k => Sys2Proof.Machine.execTio r k s
  | .stpio r k => Sys2Proof.Machine.execStpio r k s
  | .rschnl r k => Sys2Proof.Machine.execRschnl r k s
  | .hio r k => Sys2Proof.Machine.execHio r k s
  | .grio r k => Sys2Proof.Machine.execGrio r k s
  | .rsctl r k => Sys2Proof.Machine.execRsctl r k s
  | .ecwcs r k => Sys2Proof.Machine.execEcwcs r k s
  | .wcwcs r k => Sys2Proof.Machine.execWcwcs r k s

end Sys2Proof.Machine
end

