-- ==== Sys2Proof/Machine/Boundary.lean ====
section
/-! DEFINITION. Between instructions (60_exceptions.md R650, R661): the events that are taken there; the fetch of an
instruction (10_state.md R30, 30_encoding.md R148); and what follows an instruction (60_exceptions.md R662,
70_reset_and_hazards.md R734). -/

namespace Sys2Proof.Machine

/-- What the boundary answers: an entry, which is a step of its own, or the state in which to go on. -/
inductive Between where
  | entered (o : Outcome)
  | pass (s : State)

/-- Power Fail at the boundary (60_exceptions.md R623): a trap in PSD mode, a request of level X'00' in PSW mode. -/
def takePowerFail (s : State) : Outcome :=
  match s.mode with
  | .psd => .next (trapEntry entryLimit .powerFail { s with pendingPower := false })
  | .psw => .next ({ s with pendingPower := false }.setRequesting 0x00 true)

/-- The pending Block Mode Timeout (R662). In PSW mode, reached only by an IPL in between, it is dropped (log 32).
-/
def takeTimeout (s : State) : Outcome :=
  match s.mode with
  | .psd => .next (trapEntry entryLimit .blockTimeout { s with pendingTimeout := false })
  | .psw => .next { s with pendingTimeout := false }

/-- The pending arithmetic exception (R640), by role and mode. An IPU's status bit 23, set by the exception itself,
is set here as well (R682; log 15). -/
def takeArithmetic (s : State) : Outcome :=
  match s.cfg.role with
  | .ipu => ipuError (statusBit 23) { s with pendingArith := false }
  | .cpu =>
    match s.mode with
    | .psd => .next (trapEntry entryLimit .arithmetic { s with pendingArith := false })
    | .psw => .next (pswTrap .arithmetic { s with pendingArith := false })

/-- The End of IPU trap (R684). -/
def takeEndOfIpu (s : State) : Outcome := .next (trapEntry entryLimit .endOfIpu { s with ipuDonePending := false })

/-- The Start IPU trap (R684). -/
def takeStartIpu (s : State) : Outcome := ipuTrap 0x2E4 { s with ipuStartPending := false }

/-- Whether the End of IPU trap may be taken (R684; log 14): PSD mode, not blocked, no eligible interrupt. -/
def State.endOfIpuDue (s : State) : Bool :=
  s.ipuDonePending && decide (s.mode = .psd) && !s.blocked && s.eligible.isNone

/-- The panel's HALT takes effect (70_reset_and_hazards.md R731). -/
def State.panelHalt (s : State) : State := { s with runState := .halt, haltRequest := false, stepping := false }

/-- The interrupt part of the boundary of a CPU: `NONINT` first, then `BLOCKED`, then the levels (R650). -/
def cpuInterrupts (s : State) : Between :=
  if s.nonint then
    if s.endOfIpuDue then .entered (takeEndOfIpu { s with nonint := false }) else .pass { s with nonint := false }
  else if s.mode = .psd ∧ s.blocked = true then .pass s
  else
    match s.eligible with
    | some l => .entered (.next (interruptEntry l s))
    | none => if s.endOfIpuDue then .entered (takeEndOfIpu s) else .pass s

/-- Whether the panel's HALT is due: not after an interrupt entry, DAI, DACI or BIx (70_reset_and_hazards.md R722).
-/
def State.haltDue (s : State) : Bool := s.haltRequest && !s.nonint && !s.noHalt

/-- The boundary of a CPU: traps by priority, the panel's HALT, then interrupts (R650, R661). That a pending trap is
entered before an unprotected HALT acts, which then halts before the handler's first instruction, is DESIGN CHOICE
(log 7): R650 and 70_reset_and_hazards.md R731 give no order of the two. -/
def cpuBoundary (s : State) : Between :=
  if s.pendingPower then .entered (takePowerFail s)
  else if s.pendingTimeout then .entered (takeTimeout s)
  else if s.pendingArith then .entered (takeArithmetic s)
  else if s.haltDue then .pass s.panelHalt
  else cpuInterrupts s

/-- The boundary of an IPU: it takes no interrupts (R680, R682, R684). That a pending arithmetic exception goes
before a start signal is DESIGN CHOICE (log 15): R661 (b) orders the events of a CPU. That both go before the
panel's HALT is DESIGN CHOICE (log 7). -/
def ipuBoundary (s : State) : Between :=
  if s.pendingArith then .entered (takeArithmetic s)
  else if s.ipuStartPending then .entered (takeStartIpu s)
  else if s.haltDue then .pass s.panelHalt
  else .pass { s with nonint := false }

/-- `boundary()` (R650). -/
def boundary (s : State) : Between :=
  match s.cfg.role with
  | .cpu => cpuBoundary s
  | .ipu => ipuBoundary s

/-! ## Fetch -/

/-- What a fetch answers. -/
inductive Fetched where
  /-- a whole halfword or word instruction -/
  | code (c : Code) (s : State)
  /-- the first half of a word instruction in a right halfword (30_encoding.md R144, D2) -/
  | split (s : State)
  /-- the fetch failed: the program counter was not advanced (60_exceptions.md R654); the halfwords it asked for -/
  | trap (t : Trap) (n : BitVec 18) (s : State)

/-- The halfword's successor or the word's, in halfwords (10_state.md R30). -/
def codeHalfwords : Code → BitVec 18
  | .half _ => 1
  | .word _ => 2

/-- The program counter moved past the instruction, modulo 2^19 bytes, and `HIST` (10_state.md R30, R37, D3). -/
def State.advance (s : State) (n : BitVec 18) : State :=
  { s with pc := s.pc + n, hist := s.pc.getLsbD 0, instrPc := s.pc, abandoned := false, noHalt := false }

/-- The fetch (30_encoding.md R148): the first halfword, and for a word instruction the word, in memory as it
stands. -/
def State.fetchNow (s : State) : Fetched :=
  match s.locate .fetch s.pcAddr 2 with
  | .error t => .trap t 1 s
  | .ok pa =>
    if isHalfword (Memory.read16 s.mem pa) then .code (.half (Memory.read16 s.mem pa)) (s.noteFetch pa)
    else if s.pc.getLsbD 0 then .split (s.noteFetch pa)
    else
      match s.locate .fetch s.pcAddr 4 with
      | .error t => .trap t 2 s
      | .ok pa => .code (.word (Memory.read32 s.mem pa)) (s.noteFetch pa)

/-- The fetch of the instruction to be run, one memory transaction (log 1). -/
def State.fetch (s : State) : Fetched := s.transact.fetchNow

/-- The state in which a failed fetch is raised: the program counter is not advanced (60_exceptions.md R654), but
where PSW mode drops the condition it is moved past the halfwords that could not be fetched, "to the next sequential
instruction" (R622). The length of an instruction of which nothing was read counts as a halfword (log 39). -/
def State.fetchTrapped (s : State) (t : Trap) (n : BitVec 18) : State :=
  if s.cfg.role = .cpu ∧ s.mode = .psw ∧ s.pswEnters t = none then s.advance n
  else { s with abandoned := false, noHalt := false }

/-! ## After an instruction -/

/-- `BLOCK_COUNT` after a completed instruction, given `BLOCKED` before it: the instruction that sets `BLOCKED` is
not counted (R662). An abandoned instruction leaves the count (log 16). An IPU counts as well (R21, R58): it lacks
the trap alone. -/
def State.countBlocked (s : State) (wasBlocked : Bool) : State :=
  if s.abandoned = false ∧ s.mode = .psd then
    { s with blockCount := if s.blocked then (if wasBlocked then s.blockCount + 1 else s.blockCount) else 0 }
  else s

/-- The watchdog: more than 128 instructions blocked (R662); an IPU has no such trap (R682, D40). -/
def State.watchdog (s : State) : State :=
  { s with pendingTimeout := s.pendingTimeout ||
      (s.bmtoEnabled && s.blocked && decide (s.mode = .psd) && decide (s.cfg.role = .cpu) && decide (128 < s.blockCount)) }

/-- Whether the panel shows interrupts as blocked: `BLOCKED` is meaningful in PSD mode alone (10_state.md R33, R42).
-/
def State.showsBlocked (s : State) : Bool := s.blocked && decide (s.mode = .psd)

/-- PSD word 1 as the panel displays it: bits 8, 9 and 31 as well (10_state.md R32); bit 31 of a PSW is zero (R33).
-/
def State.psd1Display (s : State) : Word :=
  s.psd1Image ||| (if s.mode = .psd then 0x00800000 else 0) ||| (if s.mapped then 0x00400000 else 0) |||
    (if s.showsBlocked then 1 else 0)

/-- PSD word 2 as the panel displays it: its bit 0, bit 32 of the PSD, "indicates Interrupts Blocked if set"
(70_reset_and_hazards.md R732; 10_state.md R42). It is a map mode bit as well (R32); that the display shows either
is the model's choice (log 7). -/
def State.psd2Display (s : State) : Word := s.psd2Image ||| (if s.showsBlocked then 0x80000000 else 0)

/-- The word that holds the next instruction, for the B-Display (70_reset_and_hazards.md R734); unchanged if it
cannot be read. -/
def State.nextInstruction (s : State) : Word :=
  match s.locate .fetch (s.pcAddr &&& 0xFFFFFC) 4 with
  | .ok pa => Memory.read32 s.mem pa
  | .error _ => s.panel.bDisplay

/-- The halt of an address stop or an instruction step, with both displays (R734). -/
def State.stopHere (s : State) (light : Bool) : State :=
  { s with
    runState := .halt
    stepping := false
    stopHit := false
    panel := { s.panel with
      aDisplay := s.psd1Display
      aHolds := .psw
      bDisplay := s.nextInstruction
      stopLight := s.panel.stopLight || light } }

/-- Address stop and instruction step (R734): the halt comes at the end of the instruction, at a boundary R722
protects from the panel's HALT too (log 29). R734's "one pass" with an entry due and R650's pass that runs no
instruction leave open when an instruction step then halts: after the entry and the handler's first instruction, the
model's choice (log 29). -/
def State.checkStop (s : State) : State := if s.stopHit || s.stepping then s.stopHere s.stopHit else s

/-- What follows every instruction, given `BLOCKED` before it. -/
def State.finishInstruction (s : State) (wasBlocked : Bool) : State := ((s.countBlocked wasBlocked).watchdog).checkStop

/-- What follows an instruction's outcome. -/
def finishOutcome (wasBlocked : Bool) : Outcome → Outcome
  | .next s => .next (s.finishInstruction wasBlocked)
  | .fault f => .fault f
  | .refused r => .refused r

/-- The scratchpad's status word follows the bits it mirrors when they change (10_state.md R50; log 18). -/
def State.mirrorStatus (s old : State) : State :=
  if s.liveBits = old.liveBits then s else { s with spad := s.spad.set 0x91 s.statusWord }

/-- The mirror after a whole step. -/
def mirrorOutcome (old : State) : Outcome → Outcome
  | .next s => .next (s.mirrorStatus old)
  | .fault f => .fault f
  | .refused r => .refused r

/-! ## Placing an instruction -/

/-- Bytes of real memory written one after another. -/
def State.placeBytes : List Byte → Addr → State → State
  | [], _, s => s
  | b :: t, a, s => State.placeBytes t (a + 1) (s.poke8 a b)

/-- The real address of the next fetch; the logical address where it has none. -/
def State.fetchAddress (s : State) : Addr := (s.translate s.pcAddr).getD s.pcAddr

end Sys2Proof.Machine
end

