-- ==== Sys2Proof/Machine/Panel.lean ====
section
/-! DEFINITION. The outside world: the control panel, reset and IPL (70_reset_and_hazards.md R700 to R736), timers,
requests, power, parity, bus agents and the other processor (60_exceptions.md R623, R642, R684, R690 to R692). -/

namespace Sys2Proof.Machine

/-- The B-Display with a number as its rightmost digit (R735); its other digits stay (log 7). -/
def Panel.showDigit (p : Panel) (n : BitVec 4) : Word := p.bDisplay.extractLsb' 4 28 ++ n

/-- The OPERATOR FAULT number, "rightmost digit of the B-Display" (R735). -/
def State.operatorError (s : State) (n : BitVec 4) : State :=
  { s with panel := { s.panel with operatorFault := n, bDisplay := s.panel.showDigit n } }

/-- The ERROR number, shown in the same digit (R735; log 7). -/
def State.panelError (s : State) (n : BitVec 4) : State :=
  { s with panel := { s.panel with errorNumber := n, bDisplay := s.panel.showDigit n } }

/-- A key that acts clears the numbers of the one before (log 7). -/
def State.keyPressed (s : State) : State := { s with panel := { s.panel with operatorFault := 0, errorNumber := 0 } }

/-- A key that the panel lock disables: operator fault 2 (R730). -/
def unlocked (k : State → State) (s : State) : State := if s.panel.locked then s.operatorError 2 else k s.keyPressed

/-- A key of the Halt mode alone (R730). The spec speaks of Halt only (10_state.md R59); that a Quiescent IPU, which
is stopped as well, accepts these keys is the model's choice (log 7). -/
def halted (k : State → State) (s : State) : State :=
  unlocked (fun t => if t.runState = .halt ∨ t.runState = .quiescent then k t else t.operatorError 2) s

/-- A value, and what it is, into the A-Display. -/
def State.setA (s : State) (k : ADisplay) (v : Word) : State :=
  { s with panel := { s.panel with aDisplay := v, aHolds := k } }

def State.setB (s : State) (v : Word) : State := { s with panel := { s.panel with bDisplay := v } }

/-! ## Run, step, reset, IPL -/

/-- A halted CPU starts at the program counter (R731). An IPU in Halt or Quiescent "is woken only by the start
signal" (60_exceptions.md R693): the key does nothing but light fault 2 (R730). -/
def State.panelRun (s : State) (step : Bool) : State :=
  if s.cfg.role = .cpu ∧ s.runState = .halt then
    { s with
      runState := .run
      stepping := step
      stopHit := false
      haltRequest := false
      panel := { s.panel with stopLight := false, trapHaltLight := false } }
  else s.operatorError 2

/-- RUN/HALT (R731): HALT takes effect at the next boundary that allows it. -/
def State.runHalt (s : State) : State :=
  match s.runState with
  | .halt => s.panelRun false
  | .run => { s with haltRequest := true }
  | .wait => { s with haltRequest := true }
  | .quiescent => s.panelRun false

/-- SYSTEM RESET (R700; 10_state.md R70): memory, WCS, switches and the configuration are unchanged; the map list
pointer in the scratchpad is zero (D5) and the status word as after reset; the panel's stops are cleared. The spec
does not say what becomes of the other scratchpad cells (log 4) nor of the interval timer's counter (log 27): here
both stay. Nor does it name a trap already pending for the boundary (arithmetic exception, Block Mode Timeout, Power
Fail) or bus agents' writes still to come: here all are dropped, DESIGN CHOICE (log 3). -/
def State.systemReset (s : State) : State :=
  { State.resetFor s.cfg with
    mem := s.mem
    parityBad := s.parityBad
    wcs := s.wcs
    csw := s.csw
    spad := (s.spad.set s.cfg.spadMpl.toNat 0 s.cfg.spadMpl.isLt).set 0x91 (Config.resetStatus s.cfg)
    intervalTimer := s.intervalTimer
    inputs := s.inputs
    channelOut := s.channelOut
    freeIx := s.freeIx
    panel := { Panel.clear with
      aDisplay := s.panel.aDisplay
      aHolds := s.panel.aHolds
      bDisplay := s.panel.bDisplay
      compare := s.panel.compare
      clockOverride := s.panel.clockOverride
      locked := s.panel.locked } }

/-- IPL's writes to real memory; true if one met no memory (R710). That the words after it are still written is the
model's choice (log 33). -/
def State.iplWrites : List (Addr × Word) → State → State × Bool
  | [], s => (s, false)
  | (a, w) :: t, s =>
    match s.realWrite a w with
    | .ok s1 => State.iplWrites t s1
    | .error _ => ((State.iplWrites t s).1, true)

/-- The mode an IPL selects by bits 16 and 8-15 of the B-Display (R710). -/
def State.iplMode (s : State) (b : Word) : Mode :=
  if s.cfg.psdJumper && !b.getLsbD 15 && decide (b.extractLsb' 16 8 ≠ 0x55) then .psd else .psw

/-- The IPL device: bits 17-31, or the default (R710). -/
def State.iplDevice (s : State) (b : Word) : BitVec 15 :=
  if b.extractLsb' 0 15 = 0 then s.cfg.iplDefaultDevice else b.extractLsb' 0 15

/-- INITIAL PROGRAM LOAD (R710). An IPU does not perform one (R704). That an error leaves the entry in the program
counter all the same is the model's choice (log 33). -/
def State.ipl (s : State) : State :=
  match s.cfg.role with
  | .ipu => s.operatorError 2
  | .cpu =>
    let b := s.panel.bDisplay
    let image := Config.iplLoad (s.iplDevice b)
    let r := State.iplWrites image.writes { s with mode := s.iplMode b, mapped := s.mapped && decide (s.iplMode b = .psd) }
    let s1 := { r.1 with pc := image.entry, runState := .halt }
    if image.failed || r.2 then s1.orStatus (statusBit 21) else s1

/-! ## Displaying and altering state (R732) -/

/-- Even registers show in the A-Display, odd in the B-Display. -/
def State.showReg (s : State) (r : Reg) : State := if r.getLsbD 0 then s.setB (s.reg r) else s.setA .register (s.reg r)

/-- A full load of PSD word 1 or of the PSW. -/
def State.panelPsd1 (s : State) (v : Word) : State :=
  match s.mode with
  | .psw => s.setPsw v
  | .psd => { s.setPsw v with aexp := v.getLsbD 24 }

/-- PSD word 2 stored as by LPSD: no map is loaded (D42). PSW mode has no word 2, and the spec does not say what the
key does there: operator fault 3 is the model's choice (log 7). -/
def State.panelPsd2 (s : State) (v : Word) : State :=
  match s.mode with
  | .psw => s.operatorError 3
  | .psd => { s.setBlocked (s.newBlocked v) with psd2 := v &&& 0xFFFE3FFF, mapped := psdMapped v }

/-- PSD word 2 for the B-Display, with Interrupts Blocked as bit 32. Operator fault 3 in PSW mode, which has no word
2, is the model's choice (log 7). -/
def State.showPsd2 (s : State) : State :=
  match s.mode with
  | .psw => s.operatorError 3
  | .psd => s.setB s.psd2Display

/-- Write PC: bits 13-31 go to the A-Display, bits 13-30 to the program counter. -/
def State.panelPc (s : State) (v : Word) : State :=
  (s.jump (v.extractLsb' 0 24)).setA .pc (BitVec.zeroExtend 32 (v.extractLsb' 0 19))

/-- The real word address in the A-Display (D42), "which must contain a valid memory address, PSW, or Program
Counter Value": of the latter two it is the program counter, bits 13-31; a register's content is none. -/
def State.panelAddr (s : State) : Option Addr :=
  match s.panel.aHolds with
  | .address => some (s.panel.aDisplay.extractLsb' 0 24 &&& 0xFFFFFC)
  | .psw => some (BitVec.zeroExtend 24 (s.panel.aDisplay.extractLsb' 2 17 ++ 0#2))
  | .pc => some (BitVec.zeroExtend 24 (s.panel.aDisplay.extractLsb' 2 17 ++ 0#2))
  | .register => none

/-- ERROR 4 and 5 (R735); a parity error lights PARITY ERROR too (log 7). -/
def State.memoryError (s : State) (e : MemError) : State :=
  match e with
  | .nonpresent => s.panelError 4
  | .parity => (s.noteMemError e).panelError 5

/-- A function on the memory word the A-Display addresses; operator fault 4, "A-Display not valid for the operation"
(R735), where it holds no address. -/
def State.atA (s : State) (k : Addr → State) : State :=
  match s.panelAddr with
  | some a => k a
  | none => s.operatorError 4

/-- Read Memory. -/
def State.panelRead (s : State) : State :=
  s.atA fun a =>
    match s.realRead a with
    | .ok w => s.setB w
    | .error e => s.memoryError e

/-- Write Memory; no write protection. The operand, which the manual's operator has in the B-Display, comes with the
event, and the B-Display stays as it was: DESIGN CHOICE (log 7). -/
def State.panelWrite (s : State) (v : Word) : State :=
  s.atA fun a =>
    match s.realWrite a v with
    | .ok s1 => s1
    | .error e => s.memoryError e

/-- The A-Display plus four. That WRITE & INC and INC & READ increment it also where the access fails is the model's
choice (log 7). -/
def State.incA (s : State) : State := s.setA s.panel.aHolds (s.panel.aDisplay + 4)

/-! ## Stops (R734) -/

/-- An active stop is deactivated; else it is activated and the address goes to the one Compare register. The
address, which R734 takes from the B-Display, comes with the event and need not be what the B-Display's field holds:
DESIGN CHOICE (log 7). -/
def State.stopKey (s : State) (k : StopKind) (a : Addr) : State :=
  let p := s.panel
  match k with
  | .instruction =>
    { s with panel := if p.stopInstr then { p with stopInstr := false } else { p with stopInstr := true, compare := a } }
  | .operandRead =>
    { s with panel := if p.stopRead then { p with stopRead := false } else { p with stopRead := true, compare := a } }
  | .operandWrite =>
    { s with panel := if p.stopWrite then { p with stopWrite := false } else { p with stopWrite := true, compare := a } }

/-! ## Address functions (R736) -/

/-- The word whose address is computed for an instruction: X of BIB, BIH, BIW and BID is part of the op code and
taken as 0 (44_branch.md R290, R297). Any other word is taken as it stands, an indirect BRI and one that is no
memory reference among them (log 7). -/
def addressWord (w : Word) : Word :=
  match decode (.word w) with
  | some (.bib _ ind a) => MemRef.word ⟨0, ind, a⟩
  | some (.bih _ ind a) => MemRef.word ⟨0, ind, a⟩
  | some (.biw _ ind a) => MemRef.word ⟨0, ind, a⟩
  | some (.bid _ ind a) => MemRef.word ⟨0, ind, a⟩
  | _ => w

/-- What a panel function shows for a trap its memory accesses would raise: ERROR 4 or 5, "and raises no trap"
(R735); for an address with no translation operator fault 4 (log 7). -/
def State.panelTrap (s : State) (t : Trap) : State :=
  match t with
  | .nonpresent _ => s.memoryError .nonpresent
  | .memoryParity _ => s.memoryError .parity
  | _ => s.operatorError 4

/-- The effective address of the instruction at the program counter, in the B-Display; nothing else changes. A
halfword instruction, which has no memory reference, a word instruction in a right halfword, and a chain that never
ends show operator fault 4: the model's choice (log 7). The panel reads memory as it stands, before any bus agent's
write still to come (log 1). -/
def State.panelEffective (s : State) : State :=
  match { s with bus := [] }.fetchNow with
  | .code (.word w) t =>
    match t.effective (addressWord w) with
    | .ok e _ => s.setB (BitVec.zeroExtend 32 e.ea)
    | .trap t _ => s.panelTrap t
    | .stuck _ => s.operatorError 4
  | .code (.half _) _ => s.operatorError 4
  | .split _ => s.operatorError 4
  | .trap t _ _ => s.panelTrap t

/-- Convert Address, of PSD mode. -/
def State.panelConvert (s : State) (la : Addr) : State :=
  match s.mode with
  | .psw => s.operatorError 2
  | .psd =>
    match s.translate la with
    | some pa => s.setB (BitVec.zeroExtend 32 pa)
    | none => s.operatorError 4

/-! ## Requests -/

/-- A request reaches a CPU alone: an IPU owns no latches (60_exceptions.md R680). -/
def State.requestLevel (s : State) (l : Level) : State :=
  match s.cfg.role with
  | .cpu => if isInterruptLevel l then s.setRequesting l true else s
  | .ipu => s

/-- A clock or timer request, which CLK OVRD suppresses (R735). -/
def State.timerRequest (s : State) (l : Level) : State := if s.panel.clockOverride then s else s.requestLevel l

/-- Power failure or restoration (60_exceptions.md R623); a memory error found on power up sets status bit 27 (R695;
log 34). Two events before one boundary, a failure and the restoration, are one trap there, `pendingPower` being one
bit: DESIGN CHOICE (log 34). An IPU takes no such event: its bit 27, "IPU status", of which 10_state.md R51 gives
the name alone, is never set by the model: DESIGN CHOICE (log 36). -/
def State.powerEvent (s : State) (memoryError : Bool) : State :=
  let s1 := if memoryError then s.orStatus (statusBit 27) else s
  match s.cfg.role, s.mode with
  | .cpu, .psd => { s1 with pendingPower := true }
  | .cpu, .psw => s1.setRequesting 0x00 true
  | .ipu, _ => s

/-- An uncorrectable error appears in one byte (20_memory.md R111; log 13). -/
def State.markParity (s : State) (a : Addr) : State :=
  if s.parityBad.contains a.toNat then s else { s with parityBad := a.toNat :: s.parityBad }

/-- The start signal at an IPU (60_exceptions.md R684). -/
def State.startSignal (s : State) : State := { s with ipuStartPending := s.ipuStartPending || decide (s.cfg.role = .ipu) }

/-- The done signal at a CPU that has an IPU (60_exceptions.md R684). -/
def State.doneSignal (s : State) : State :=
  { s with ipuDonePending := s.ipuDonePending || (decide (s.cfg.role = .cpu) && s.cfg.ipuPresent) }

/-- The SYSTEM RESET key: on a CPU in the Halt mode alone (R700); "The Internal Processing Unit is initialized by a
system reset" whatever it is doing (R704), since the key waits for the CPU's halt, which is not in an IPU's state
(log 40). -/
def State.resetKey (s : State) : State :=
  match s.cfg.role with
  | .cpu => halted State.systemReset s
  | .ipu => unlocked State.systemReset s

/-- One event of the outside world. Write Control Switches works in every run state and with the panel locked: R732
asks for the Halt mode and R730 exempts the switches from the lock alone, which leaves it open; a write of a
register or of a PSD word leaves both displays (log 7). -/
def hostEvent (e : HostEvent) (s : State) : State :=
  match e with
  | .runHaltKey => unlocked State.runHalt s
  | .instrStepKey => halted (fun t => t.panelRun true) s
  | .systemResetKey => s.resetKey
  | .iplKey => halted State.ipl s
  | .loadBDisplay v => unlocked (fun t => t.setB v) s
  | .readReg r => halted (fun t => t.showReg r) s
  | .writeReg r v => halted (fun t => t.setReg r v) s
  | .readPsd1 => halted (fun t => t.setA .psw t.psd1Display) s
  | .writePsd1 v => halted (fun t => t.panelPsd1 v) s
  | .readPsd2 => halted State.showPsd2 s
  | .writePsd2 v => halted (fun t => t.panelPsd2 v) s
  | .readPc => halted (fun t => t.setA .pc (BitVec.zeroExtend 32 t.pcAddr)) s
  | .writePc v => halted (fun t => t.panelPc v) s
  | .writeMemAddress v => unlocked (fun t => t.setA .address v) s
  | .readMem => halted State.panelRead s
  | .incReadMem => halted (fun t => t.incA.panelRead) s
  | .writeMem v => halted (fun t => t.panelWrite v) s
  | .writeIncMem v => halted (fun t => (t.panelWrite v).incA) s
  | .readCsw => (s.keyPressed).setB (s.csw ++ 0#16)
  | .writeCsw v => { s.keyPressed with csw := v.extractLsb' 16 16 }
  | .stopKey k a => halted (fun t => t.stopKey k a) s
  | .readEffectiveAddress => halted State.panelEffective s
  | .convertAddress a => halted (fun t => t.panelConvert a) s
  | .attentionKey => s.requestLevel 0x13
  | .clockOverrideKey => unlocked (fun t => { t with panel := { t.panel with clockOverride := !t.panel.clockOverride } }) s
  | .panelLock b => { s with panel := { s.panel with locked := b } }
  | .clockTick => s.timerRequest 0x28
  | .timerExpired l => s.timerRequest l
  | .timerCounts v => { s with intervalTimer := v }
  | .request l => s.requestLevel l
  | .powerFail e => s.powerEvent e
  | .parityError a => s.markParity a
  | .busWrite a b => s.busWrite a b
  | .busBetween l => { s with bus := s.bus ++ [l] }
  | .ipuStart => s.startSignal
  | .ipuDone => s.doneSignal

end Sys2Proof.Machine
end

