-- ==== Sys2Proof/Machine/Step.lean ====
section
/-! DEFINITION. One step: a host event, an entry at the boundary, an instruction, or idling (60_exceptions.md R650). -/

namespace Sys2Proof.Machine

/-- The instruction a fetch delivers, or the trap of its encoding (30_encoding.md R148, R160). A word instruction in
a right halfword counts two bytes, as `HIST` tells a handler (log 35). -/
def runFetched (f : Fetched) : Outcome :=
  match f with
  | .trap t n s => raise t (s.fetchTrapped t n)
  | .split s => raise .undefined (s.advance 1)
  | .code c s =>
    match decode c with
    | some i => exec i (s.advance (codeHalfwords c))
    | none => raise .undefined (s.advance (codeHalfwords c))

/-- Fetch, execute, and what follows (10_state.md R30). -/
def instructionStep (s : State) : Outcome := finishOutcome s.blocked (runFetched s.fetch)

/-- The processor's cycle while it runs or waits (R650). An entry ends it without a halt: an instruction step goes
on to the handler's first instruction (70_reset_and_hazards.md R734; the model's choice, log 29). -/
def cycle (s : State) : Outcome :=
  match boundary s with
  | .entered o => o
  | .pass s1 => if s1.runState = .run then instructionStep s1 else .next s1

/-- The processor idle: only its start signal wakes an IPU (60_exceptions.md R684, R693). -/
def idle (s : State) : Outcome :=
  if s.cfg.role = .ipu ∧ s.ipuStartPending = true then takeStartIpu s else .next s

/-- The processor's part of a step, by `RUNSTATE`. -/
def processorStep (s : State) : Outcome :=
  match s.runState with
  | .run => cycle s
  | .wait => cycle s
  | .halt => idle s
  | .quiescent => idle s

/-- One step: the oldest host event not yet taken, else the processor. -/
def step (s : State) : Outcome :=
  mirrorOutcome s (
    match s.inputs with
    | e :: rest => .next (hostEvent e { s with inputs := rest })
    | [] => processorStep s)

/-- `s` with an instruction where the next step fetches it: its bytes at the program counter's real address, the
processor running, no host event before it (log 6), and no bus agent's write between (log 1). -/
def State.withFetchWord (s : State) (nbits w : Nat) : State :=
  { State.placeBytes (tableBytes nbits w) s.fetchAddress s with runState := .run, inputs := [], bus := [] }

end Sys2Proof.Machine
end

