-- ==== Sys2Proof/Safety.lean ====
section
/-! DEFINITION. What the statements speak of: the invariant of the machine, the classes of instructions the spec
lists, and the frames. -/

namespace Sys2Proof.Machine

/-- Memory and WCS in their canonical form. -/
def State.MemoryInv (s : State) : Prop := Memory.wf s.mem = true ∧ Wcs.wf s.wcs = true

/-- The control modes are legal: an IPU is in PSD mode (10_state.md R31), and PSW mode is unmapped (R43). -/
def State.ModeInv (s : State) : Prop :=
  (s.cfg.role = .ipu → s.mode = .psd) ∧ (s.mode = .psw → s.mapped = false)

/-- Between steps: no Execute in progress (R60), no memory lock held (20_memory.md R120), bits 47 to 49 of the
stored PSD word 2 zero (R32). -/
def State.RestInv (s : State) : Prop :=
  s.execDepth = false ∧ s.memLock = false ∧ s.psd2 &&& 0x0001C000 = 0

/-- The invariant of the machine. -/
def State.Inv (s : State) : Prop := s.MemoryInv ∧ s.ModeInv ∧ s.RestInv

/-- The privileged instructions of a CPU (60_exceptions.md R631). -/
def isPrivileged : Instr → Bool
  | .lear _ _ => true
  | .tscr _ _ => true
  | .trsc _ _ => true
  | .trp _ _ => true
  | .lmap _ => true
  | .tmapr _ _ => true
  | .wwcs _ _ => true
  | .rwcs _ _ => true
  | .bri _ => true
  | .lpsd _ => true
  | .lpsdcm _ => true
  | .halt => true
  | .setcpu _ => true
  | .rdsts _ => true
  | .eae => true
  | .dae => true
  | .ei _ => true
  | .di _ => true
  | .ri _ => true
  | .ai _ => true
  | .dai _ => true
  | .eci _ _ => true
  | .dci _ _ => true
  | .aci _ _ => true
  | .daci _ _ => true
  | .bei => true
  | .uei => true
  | .cd _ _ => true
  | .td _ _ => true
  | .sio _ _ => true
  | .tio _ _ => true
  | .stpio _ _ => true
  | .rschnl _ _ => true
  | .hio _ _ => true
  | .grio _ _ => true
  | .rsctl _ _ => true
  | .ecwcs _ _ => true
  | .wcwcs _ _ => true
  | _ => false

/-- The instructions of PSD mode alone (30_encoding.md R170). -/
def isPsdOnly : Instr → Bool
  | .lear _ _ => true
  | .la _ _ => true
  | .lmap _ => true
  | .tmapr _ _ => true
  | .lpsd _ => true
  | .lpsdcm _ => true
  | .svc _ _ => true
  | .eae => true
  | .dae => true
  | .eci _ _ => true
  | .dci _ _ => true
  | .aci _ _ => true
  | .daci _ _ => true
  | .bei => true
  | .uei => true
  | .sio _ _ => true
  | .tio _ _ => true
  | .stpio _ _ => true
  | .rschnl _ _ => true
  | .hio _ _ => true
  | .grio _ _ => true
  | .rsctl _ _ => true
  | .ecwcs _ _ => true
  | .wcwcs _ _ => true
  | _ => false

/-- The instructions an IPU does not implement (30_encoding.md R171). -/
def isCpuOnly : Instr → Bool
  | .bri _ => true
  | .ei _ => true
  | .di _ => true
  | .ri _ => true
  | .ai _ => true
  | .dai _ => true
  | .eci _ _ => true
  | .dci _ _ => true
  | .aci _ _ => true
  | .daci _ _ => true
  | .bei => true
  | .cd _ _ => true
  | .td _ _ => true
  | .sio _ _ => true
  | .tio _ _ => true
  | .stpio _ _ => true
  | .rschnl _ _ => true
  | .hio _ _ => true
  | .grio _ _ => true
  | .rsctl _ _ => true
  | .ecwcs _ _ => true
  | .wcwcs _ _ => true
  | _ => false

/-- The instructions that load a whole PSW or PSD, or may run one that does (10_state.md R35). -/
def mayLoadPsd : Instr → Bool
  | .bri _ => true
  | .lpsd _ => true
  | .lpsdcm _ => true
  | .exr _ => true
  | .exrr _ => true
  | .exm _ => true
  | .sipu => true
  | .calm _ => true
  | .svc _ _ => true
  | _ => false

/-- The instructions that may store into memory, and those that may run such a one. -/
def mayStore : Instr → Bool
  | .stb _ _ => true
  | .sth _ _ => true
  | .stw _ _ => true
  | .std _ _ => true
  | .stmb _ _ => true
  | .stmh _ _ => true
  | .stmw _ _ => true
  | .stmd _ _ => true
  | .stf _ _ => true
  | .zmb _ => true
  | .zmh _ => true
  | .zmw _ => true
  | .zmd _ => true
  | .rwcs _ _ => true
  | .jwcs _ => true
  | .sbm _ _ => true
  | .zbm _ _ => true
  | .abm _ _ => true
  | .armb _ _ => true
  | .armh _ _ => true
  | .armw _ _ => true
  | .armd _ _ => true
  | .exr _ => true
  | .exrr _ => true
  | .exm _ => true
  | .sipu => true
  | .calm _ => true
  | .svc _ _ => true
  | .sio _ _ => true
  | .tio _ _ => true
  | .hio _ _ => true
  | _ => false

/-- The instructions that act on nothing but registers, memory, condition code and program counter: those of
Load/Store, the register transfers between general registers, Branch, Compare, Logical, Shift, Bit Manipulation,
Fixed-Point and Floating-Point, and LCS, TPR and NOP. -/
def isOrdinary : Instr → Bool
  | .lear _ _ => false
  | .tscr _ _ => false
  | .trsc _ _ => false
  | .trp _ _ => false
  | .sea => false
  | .cea => false
  | .lmap _ => false
  | .tmapr _ _ => false
  | .wwcs _ _ => false
  | .rwcs _ _ => false
  | .jwcs _ => false
  | .bri _ => false
  | .lpsd _ => false
  | .lpsdcm _ => false
  | .exr _ => false
  | .exrr _ => false
  | .exm _ => false
  | .halt => false
  | .wait => false
  | .sipu => false
  | .calm _ => false
  | .svc _ _ => false
  | .setcpu _ => false
  | .rdsts _ => false
  | .eae => false
  | .dae => false
  | .ei _ => false
  | .di _ => false
  | .ri _ => false
  | .ai _ => false
  | .dai _ => false
  | .eci _ _ => false
  | .dci _ _ => false
  | .aci _ _ => false
  | .daci _ _ => false
  | .bei => false
  | .uei => false
  | .cd _ _ => false
  | .td _ _ => false
  | .sio _ _ => false
  | .tio _ _ => false
  | .stpio _ _ => false
  | .rschnl _ _ => false
  | .hio _ _ => false
  | .grio _ _ => false
  | .rsctl _ _ => false
  | .ecwcs _ _ => false
  | .wcwcs _ _ => false
  | _ => true

/-- Every byte of memory reads as before. -/
def SameBytes (s t : State) : Prop := ∀ a, Memory.read t.mem a = Memory.read s.mem a

/-- Every byte outside `n` bytes from `a` reads as before. -/
def SameBytesOutside (s t : State) (a : Addr) (n : Nat) : Prop :=
  ∀ x : Addr, (∀ k, k < n → x ≠ a + BitVec.ofNat 24 k) → Memory.read t.mem x.toNat = Memory.read s.mem x.toNat

/-- No bus agent writes between this processor's next memory transactions (53_input_output.md R572 (b)). -/
def State.Alone (s : State) : Prop := s.bus = []

/-! ## Completion -/

/-- The state with the panel's operand stop match set to `b` (70_reset_and_hazards.md R734). -/
def State.withStop (s : State) (b : Bool) : State := { s with stopHit := b }

/-- `i` completes at `s` with the next state `t`, but for the panel's operand stop match. -/
def Completes (i : Instr) (s t : State) : Prop := ∃ b, exec i s = .next (t.withStop b)

/-- The condition code of a result, by its value: CC1 to CC4 weigh 8, 4, 2 and 1 (10_state.md R40). -/
def signCc (ae : Bool) (v : Int) : BitVec 4 :=
  (if ae then 8 else 0) + (if 0 < v then 4 else if v < 0 then 2 else 1)

/-- Whether a value has no two's complement representation in `n` bits. -/
def outOfRange (n : Nat) (v : Int) : Bool := decide (v < -(2 ^ (n - 1) : Int)) || decide ((2 ^ (n - 1) : Int) ≤ v)

/-- `s` with the condition code, and with the arithmetic exception `ae` pending where the mask, or on a CPU the PSW
mode, lets it be; on an IPU status bit 23 is then set as well (60_exceptions.md R640). -/
def State.afterArith (s : State) (ae : Bool) (cc : BitVec 4) : State :=
  let due : Bool := ae && (s.aexp || (decide (s.cfg.role = .cpu) && decide (s.mode = .psw)))
  { s with
    cc := cc
    pendingArith := s.pendingArith || due
    spad := if due && decide (s.cfg.role = .ipu) then s.spad.set 0x91 (s.status ||| 0x100) else s.spad }

/-! ## Operands in memory -/

/-- The byte at a logical address can be read, and is `v`. -/
def State.ReadsByte (s : State) (a : Addr) (v : Byte) : Prop :=
  ∃ pa, s.locate .read a 1 = .ok pa ∧ v = Memory.read s.mem pa.toNat

/-- The halfword at a logical address can be read, and is `v`. -/
def State.ReadsHalf (s : State) (a : Addr) (v : Half) : Prop :=
  ∃ pa, s.locate .read a 2 = .ok pa ∧ v = Memory.read16 s.mem pa

/-- The word at a logical address can be read, and is `v`. -/
def State.ReadsWord (s : State) (a : Addr) (v : Word) : Prop :=
  ∃ pa, s.locate .read a 4 = .ok pa ∧ v = Memory.read32 s.mem pa

/-- What holds of an instruction whose operand is read while no bus agent writes, by the operand the effective
address of `w` selects: `byte`, `half`, `word` of its value, `double` of its two words. -/
def State.OnRead (s : State) (w : Word) (byte : Byte → Prop) (half : Half → Prop) (word : Word → Prop)
    (double : Word → Word → Prop) : Prop :=
  s.Alone → ∀ e s1, s.effective w = .ok e s1 →
    match e.operand with
    | .byte a => ∀ v, s.ReadsByte a v → byte v
    | .half a => ∀ v, s.ReadsHalf a v → half v
    | .word a => ∀ v, s.ReadsWord a v → word v
    | .double a => ∀ hi lo, s.ReadsWord a hi → s.ReadsWord (a + 4) lo → double hi lo

/-- What holds of an instruction whose operand is written while no bus agent writes, by the operand the effective
address of `w` selects, of its real address; a doubleword's two words each have theirs. -/
def State.OnWrite (s : State) (w : Word) (byte half word : Addr → Prop) (double : Addr → Addr → Prop) : Prop :=
  s.Alone → ∀ e s1, s.effective w = .ok e s1 →
    match e.operand with
    | .byte a => ∀ pa, s.locate .write a 1 = .ok pa → byte pa
    | .half a => ∀ pa, s.locate .write a 2 = .ok pa → half pa
    | .word a => ∀ pa, s.locate .write a 4 = .ok pa → word pa
    | .double a => ∀ ph pl, s.locate .write a 4 = .ok ph → s.locate .write (a + 4) 4 = .ok pl → double ph pl

/-- What an instruction does whose operand cannot be read while no bus agent writes: the trap of the access that
fails is raised, with nothing changed before it (20_memory.md R114). A doubleword's low-order word is read first;
`odd` is the state its value leaves where the other word then fails. A trap met by an indirect chain is raised as
well. -/
def State.OnReadFault (s : State) (i : Instr) (w : Word) (odd : Word → State) : Prop :=
  let raises (t : Trap) (u : State) : Prop := ∃ b, exec i s = raise t (u.withStop b)
  (∀ t s1, s.effective w = .trap t s1 → exec i s = raise t s1) ∧
  (s.Alone → ∀ e s1, s.effective w = .ok e s1 →
    match e.operand with
    | .byte a => ∀ t, s.locate .read a 1 = .error t → raises t s
    | .half a => ∀ t, s.locate .read a 2 = .error t → raises t s
    | .word a => ∀ t, s.locate .read a 4 = .error t → raises t s
    | .double a => (∀ t, s.locate .read (a + 4) 4 = .error t → raises t s) ∧
      ∀ t lo, s.ReadsWord (a + 4) lo → s.locate .read a 4 = .error t → raises t (odd lo))

/-- What an instruction does whose operand cannot be written while no bus agent writes: the trap of the access that
fails is raised, with nothing stored before it (20_memory.md R105, R114); where the second word of a doubleword
fails, its low-order word `lo` is stored. A trap met by an indirect chain is raised as well. -/
def State.OnWriteFault (s : State) (i : Instr) (w lo : Word) : Prop :=
  let raises (t : Trap) (u : State) : Prop := ∃ b, exec i s = raise t (u.withStop b)
  (∀ t s1, s.effective w = .trap t s1 → exec i s = raise t s1) ∧
  (s.Alone → ∀ e s1, s.effective w = .ok e s1 →
    match e.operand with
    | .byte a => ∀ t, s.locate .write a 1 = .error t → raises t s
    | .half a => ∀ t, s.locate .write a 2 = .error t → raises t s
    | .word a => ∀ t, s.locate .write a 4 = .error t → raises t s
    | .double a => (∀ t, s.locate .write (a + 4) 4 = .error t → raises t s) ∧
      ∀ t pl, s.locate .write (a + 4) 4 = .ok pl → s.locate .write a 4 = .error t → raises t (s.poke32 pl lo))

/-- Reads and writes at one logical address: `n` bytes can be read and written, at the real address `pa`. -/
def State.Modifies (s : State) (a : Addr) (n : Nat) (pa : Addr) : Prop :=
  s.locate .read a n = .ok pa ∧ s.locate .write a n = .ok pa

/-- The trap of an operand of `n` bytes that is read and written at one logical address: of the read, else of the
write. -/
def State.ModifyFault (s : State) (a : Addr) (n : Nat) (t : Trap) : Prop :=
  s.locate .read a n = .error t ∨ ((∃ pa, s.locate .read a n = .ok pa) ∧ s.locate .write a n = .error t)

/-- An instruction that reads a value and completes: `f` is the next state for a byte (zero extended), a halfword
(sign extended) or a word, `g` for a doubleword. -/
def State.OnValue (s : State) (i : Instr) (w : Word) (f : Word → State) (g : Double → State) : Prop :=
  s.OnRead w (fun v => Completes i s (f (BitVec.ofNat 32 v.toNat))) (fun v => Completes i s (f (BitVec.ofInt 32 v.toInt)))
    (fun v => Completes i s (f v)) (fun hi lo => Completes i s (g (hi ++ lo)))

/-- One level of addressing as numbers: the address without or with extended addressing, given the 20-bit field and
the index (20_memory.md R90, R93). -/
def levelAddress (ext : Bool) (field index : Nat) : Nat :=
  if ext then (field % 2 ^ 19 + index) % 2 ^ 24 else (field + index) % 2 ^ 19

/-- The F bit of one level of addressing (R90, R93). -/
def levelFormat (ext : Bool) (field index : Nat) : Bool :=
  if ext then decide (field / 2 ^ 19 = 1) else decide ((field + index) / 2 ^ 19 % 2 = 1)

/-- The index register's contents, zero for X = 0 (R90). -/
def State.indexNumber (s : State) (x : BitVec 2) : Nat := if x = 0 then 0 else (s.reg (BitVec.ofNat 3 x.toNat)).toNat

/-- The address of the `k`-th word of a register file: the low three bits of the word address count modulo 8 (R217).
-/
def fileAddress (a : Addr) (k : Nat) : Addr :=
  BitVec.ofNat 24 (a.toNat / 32 * 32 + (a.toNat / 4 + k) % 8 * 4)

/-- The memory word address WWCS and RWCS take from a register (43_wcs.md R281). -/
def State.wcsOperand (s : State) (v : Word) : Addr :=
  if s.ext then BitVec.ofNat 24 (v.toNat / 4 * 4) else BitVec.ofNat 24 (v.toNat / 4 * 4 % 2 ^ 19)

/-- The word after it, inside the addressing mode's space (log 23). -/
def State.wcsOperandNext (s : State) (v : Word) : Addr :=
  if s.ext then s.wcsOperand v + 4 else BitVec.ofNat 24 (((s.wcsOperand v).toNat + 4) % 2 ^ 19)

/-! ## PSDs and context blocks -/

/-- PSD word 1 as a number: the stored image of R32 and R33 (10_state.md). -/
def State.psd1Number (s : State) : Nat :=
  s.priv.toNat * 2 ^ 31 + s.cc.toNat * 2 ^ 27 + s.ext.toNat * 2 ^ 26 + s.hist.toNat * 2 ^ 25 +
    (s.aexp && decide (s.mode = .psd)).toNat * 2 ^ 24 + s.pc.toNat * 2

/-- Every field of a PSD load from words `n1` and `n2` over the state `old`, but for the map registers (10_state.md
R39). -/
def State.LoadedPsd (t old : State) (n1 n2 : Word) : Prop :=
  t.priv = n1.getLsbD 31 ∧ t.cc = n1.extractLsb' 27 4 ∧ t.ext = n1.getLsbD 26 ∧ t.hist = n1.getLsbD 25 ∧
    t.aexp = n1.getLsbD 24 ∧ t.pc = n1.extractLsb' 1 18 ∧ t.psd2 = n2 &&& 0xFFFE3FFF ∧
    t.mapped = decide (0x40000000 ≤ n2.toNat) ∧
    t.blocked = (if n2.toNat / 0x4000 % 4 = 0 then false else if n2.toNat / 0x4000 % 4 = 1 then true else old.blocked) ∧
    t.mode = old.mode

/-- A PSD word 2 that needs no map load: unmapped, or retaining the map (20_memory.md R101). -/
def keepsMap (n2 : Word) : Prop := n2.toNat < 0x40000000 ∨ n2.getLsbD 16 = true

/-- The segment descriptor at the real address `a` names the page entries `pages` (20_memory.md R102). -/
def State.SegmentAt (s : State) (a : Addr) (pages : List Half) : Prop :=
  ∃ msd, s.realRead a = .ok msd ∧ pages.length = msd.toNat / 2 ^ 24 ∧
    ∀ k (h : k < pages.length), s.realRead16 (msd.extractLsb' 0 24 + BitVec.ofNat 24 (2 * k)) = .ok pages[k]

/-- Consecutive segment descriptors from the real address `a` (R102). -/
def State.SegmentsAt (s : State) (a : Addr) (segments : List (List Half)) : Prop :=
  ∀ j (h : j < segments.length), s.SegmentAt (a + BitVec.ofNat 24 (4 * j)) segments[j]

/-- The page entries of the process that PSD word 2 `n2` names: those of its own segments one after another, or,
with the borrowed bit, the base process's first segment before its own (R102; the descriptors' fields are the spec's
decision D22). -/
def State.ProcessPages (s : State) (n2 : Word) (pages : List Half) : Prop :=
  ∃ mscd, s.realRead (s.mplAddr + BitVec.ofNat 24 (n2.toNat / 4 % 4096 * 4)) = .ok mscd ∧
    ∃ segments, s.SegmentsAt (mscd.extractLsb' 0 24) segments ∧
      if mscd.toNat / 2 ^ 31 = 0 then segments.length = mscd.toNat / 2 ^ 24 % 64 ∧ pages = segments.flatten
      else ∃ bmscd first, s.realRead (s.mplAddr + BitVec.ofNat 24 (n2.toNat / 2 ^ 18 % 4096 * 4)) = .ok bmscd ∧
        s.SegmentAt (bmscd.extractLsb' 0 24) first ∧ segments.length = mscd.toNat / 2 ^ 24 % 64 - 1 ∧
        pages = first ++ segments.flatten

/-- The map that holds page entries from register 0 on, the other registers zero (R102). -/
def mapOf (pages : List Half) : Vector Half 32 := Vector.ofFn fun j => pages.getD j.val 0

/-- The map after a PSD load with word 2 `n2`: as before where the PSD keeps it, else that of its process (R101,
R102). -/
def State.NewMap (s : State) (n2 : Word) (m : Vector Half 32) : Prop :=
  (keepsMap n2 ∧ m = s.map) ∨ (¬keepsMap n2 ∧ ∃ pages, pages.length ≤ 32 ∧ s.ProcessPages n2 pages ∧ m = mapOf pages)

/-- `s` with the PSD of `old` stored in words 1 and 2 of a context block (60_exceptions.md R651). -/
def State.storedPsd (s old : State) (icb : Addr) : State :=
  (s.poke32 icb (BitVec.ofNat 32 old.psd1Number)).poke32 (icb + 4) (old.psd2 ||| (if old.blocked then 0x4000 else 0))

/-- The map after an entry that has stored the PSD of `old` and the fifth word: the walk reads memory as the stores
left it. A walk needs its list pointer in another scratchpad cell than the status word's. -/
def State.EntryMap (s old : State) (icb : Addr) (fifth n2 : Word) (m : Vector Half 32) : Prop :=
  ((s.storedPsd old icb).poke32 (icb + 16) fifth).NewMap n2 m ∧ (keepsMap n2 ∨ s.cfg.spadMpl ≠ 0x91)

/-- A context block of the trap format at `icb` whose stores and reads all meet memory, with its new PSD
(60_exceptions.md R651). -/
def State.BlockAt (s : State) (icb : Addr) (n1 n2 : Word) : Prop :=
  s.present icb 4 = true ∧ s.present (icb + 4) 4 = true ∧ s.present (icb + 16) 4 = true ∧
    s.realRead (icb + 8) = .ok n1 ∧ s.realRead (icb + 12) = .ok n2

/-- Words 1 and 2 of a context block hold the old PSD (60_exceptions.md R651, 10_state.md R32). -/
def State.StoredPsd (t old : State) (icb : Addr) : Prop :=
  Memory.read32 t.mem icb = BitVec.ofNat 32 old.psd1Number ∧
    Memory.read32 t.mem (icb + 4) = old.psd2 ||| (if old.blocked then 0x4000 else 0)

/-- Every byte of memory reads as before, but for the words a trap entry stores at `icb`, `icb + 4` and `icb + 16`.
-/
def SameOutsideBlock (s t : State) (icb : Addr) : Prop :=
  ∀ x : Addr, (∀ k, k < 8 → x ≠ icb + BitVec.ofNat 24 k) → (∀ k, k < 4 → x ≠ icb + 16 + BitVec.ofNat 24 k) →
    Memory.read t.mem x.toNat = Memory.read s.mem x.toNat

/-! ## Memory errors in an entry -/

/-- Of the words stored in turn at real addresses, one meets absent memory: `p` is the machine as the ones before it
leave it. -/
def StoresStop : List (Addr × Word) → State → State → Prop
  | [], _, _ => False
  | (a, w) :: rest, s, p => if s.present a 4 then StoresStop rest (s.poke32 a w) p else p = s

/-- A memory error `e` on the descriptor of a segment, or on a page entry after `pages`, `before` entries being
loaded (20_memory.md R102). -/
def State.SegmentFails (s : State) (e : MemError) (before : Nat) (a : Addr) (pages : List Half) : Prop :=
  before ≤ 32 ∧
  ((s.realRead a = .error e ∧ pages = []) ∨
    ∃ msd, s.realRead a = .ok msd ∧ pages.length < msd.toNat / 2 ^ 24 ∧ before + pages.length < 32 ∧
      (∀ k (h : k < pages.length), s.realRead16 (msd.extractLsb' 0 24 + BitVec.ofNat 24 (2 * k)) = .ok pages[k]) ∧
      s.realRead16 (msd.extractLsb' 0 24 + BitVec.ofNat 24 (2 * pages.length)) = .error e)

/-- The same in one of `count` segments whose descriptors lie from `a` on; `pages` are the entries of these loaded
before it. -/
def State.SegmentsFail (s : State) (e : MemError) (before : Nat) (a : Addr) (count : Nat) (pages : List Half) : Prop :=
  ∃ segments last, segments.length < count ∧ s.SegmentsAt a segments ∧
    s.SegmentFails e (before + segments.flatten.length) (a + BitVec.ofNat 24 (4 * segments.length)) last ∧
    pages = segments.flatten ++ last

/-- A memory error `e` on some read of the map walk for PSD word 2 `n2`, and the map as the walk leaves it: as it
was where the process's own descriptor fails, else what was loaded before (R102). -/
def State.WalkFails (s : State) (n2 : Word) (e : MemError) (map : Vector Half 32) : Prop :=
  (s.realRead (s.mplAddr + BitVec.ofNat 24 (n2.toNat / 4 % 4096 * 4)) = .error e ∧ map = s.map) ∨
  ∃ mscd pages, s.realRead (s.mplAddr + BitVec.ofNat 24 (n2.toNat / 4 % 4096 * 4)) = .ok mscd ∧ map = mapOf pages ∧
    if mscd.toNat / 2 ^ 31 = 0 then s.SegmentsFail e 0 (mscd.extractLsb' 0 24) (mscd.toNat / 2 ^ 24 % 64) pages
    else
      let base : Addr := s.mplAddr + BitVec.ofNat 24 (n2.toNat / 2 ^ 18 % 4096 * 4)
      (s.realRead base = .error e ∧ pages = []) ∨
      ∃ bmscd, s.realRead base = .ok bmscd ∧
        (s.SegmentFails e 0 (bmscd.extractLsb' 0 24) pages ∨
          ∃ first rest, s.SegmentAt (bmscd.extractLsb' 0 24) first ∧
            s.SegmentsFail e first.length (mscd.extractLsb' 0 24) (mscd.toNat / 2 ^ 24 % 64 - 1) rest ∧ pages = first ++ rest)

/-- A memory error `e` on a read of the new PSD of the context block at `icb`, or in the walk of the map it names;
the map as it then stands. -/
def State.NewPsdFails (s : State) (e : MemError) (icb : Addr) (map : Vector Half 32) : Prop :=
  (s.realRead (icb + 8) = .error e ∧ map = s.map) ∨
  ∃ n1, s.realRead (icb + 8) = .ok n1 ∧
    ((s.realRead (icb + 12) = .error e ∧ map = s.map) ∨
      ∃ n2, s.realRead (icb + 12) = .ok n2 ∧ ¬keepsMap n2 ∧ s.WalkFails n2 e map)

/-- A trap entry through `vector`, with `fifth` as the status word it stores, meets the memory error `e`: `p` is
memory as stored before it, `stored` whether the status word was stored and its error bits cleared, `map` the map as
it then stands (60_exceptions.md R653, R655). -/
def State.TrapFails (s : State) (e : MemError) (vector : Addr) (fifth : Word) (p : State) (stored : Bool)
    (map : Vector Half 32) : Prop :=
  (s.realRead vector = .error e ∧ p = s ∧ stored = false ∧ map = s.map) ∨
  ∃ v, s.realRead vector = .ok v ∧
    let icb : Addr := v.extractLsb' 0 24
    let word2 : Word := s.psd2 ||| (if s.blocked then 0x4000 else 0)
    (e = .nonpresent ∧ stored = false ∧ map = s.map ∧
      StoresStop [(icb, BitVec.ofNat 32 s.psd1Number), (icb + 4, word2), (icb + 16, fifth)] s p) ∨
    (s.present icb 4 = true ∧ s.present (icb + 4) 4 = true ∧ s.present (icb + 16) 4 = true ∧
      p = { (s.storedPsd s icb).poke32 (icb + 16) fifth with spad := s.spad.set 0x91 (s.status &&& 0xFF) } ∧ stored = true ∧
      p.NewPsdFails e icb map)

/-- The entry of an interrupt level in PSD mode meets the memory error `e`: on the vector or on a store of the old
PSD, or, for a level that is no Class F channel's, on the new PSD or in the map walk (60_exceptions.md R651, R652).
-/
def State.LevelFails (s : State) (e : MemError) (l : Level) (p : State) (map : Vector Half 32) : Prop :=
  (s.realRead (levelVector l) = .error e ∧ p = s ∧ map = s.map) ∨
  ∃ v, s.realRead (levelVector l) = .ok v ∧
    let icb : Addr := v.extractLsb' 0 24
    let word2 : Word := s.psd2 ||| (if s.blocked then 0x4000 else 0)
    (e = .nonpresent ∧ map = s.map ∧ StoresStop [(icb, BitVec.ofNat 32 s.psd1Number), (icb + 4, word2)] s p) ∨
    (Config.classFLevel s.cfg l = none ∧ s.present icb 4 = true ∧ s.present (icb + 4) 4 = true ∧ p = s.storedPsd s icb ∧
      p.NewPsdFails e icb map)

/-- The entry of an interrupt level in PSW mode meets the memory error `e` (60_exceptions.md R651, R652). -/
def State.PswLevelFails (s : State) (e : MemError) (l : Level) (p : State) : Prop :=
  (s.realRead (levelVector l) = .error e ∧ p = s) ∨
  ∃ v, s.realRead (levelVector l) = .ok v ∧
    let icb : Addr := v.extractLsb' 0 24
    (e = .nonpresent ∧ s.present icb 4 = false ∧ p = s) ∨
    (s.present icb 4 = true ∧ p = s.poke32 icb (BitVec.ofNat 32 s.psd1Number) ∧ p.realRead (icb + 4) = .error e)

/-! ## Floating point -/

/-- The signed fraction of a number as an integer, in units of its least digit (50_floating_point.md R481). -/
def fpInteger {n : Nat} (x : BitVec n) : Int := (if x.msb then -1 else 1) * (fpMagnitude x % 2 ^ (n - 8) : Nat)

/-- Whether the word `c` is exactly the result of the operation on `a` and `b`: the numbers are their fractions
times a power of 16, biased by 64, with six digits (R481, R484). -/
def fpExactly : FpOp → Word → Word → Word → Prop
  | .add, a, b, c =>
    fpInteger c * 16 ^ fpExponent c = fpInteger a * 16 ^ fpExponent a + fpInteger b * 16 ^ fpExponent b
  | .sub, a, b, c =>
    fpInteger c * 16 ^ fpExponent c = fpInteger a * 16 ^ fpExponent a - fpInteger b * 16 ^ fpExponent b
  | .mul, a, b, c => fpInteger c * 16 ^ (fpExponent c + 70) = fpInteger a * fpInteger b * 16 ^ (fpExponent a + fpExponent b)
  | .div, a, b, c => b ≠ 0 ∧
    fpInteger c * fpInteger b * 16 ^ (fpExponent c + fpExponent b) = fpInteger a * 16 ^ (fpExponent a + 70)

/-! ## Between instructions -/

/-- Nothing waits for the boundary: no host event, no pending trap, no halt requested. -/
def State.Quiet (s : State) : Prop :=
  s.inputs = [] ∧ s.pendingPower = false ∧ s.pendingTimeout = false ∧ s.pendingArith = false ∧
    s.haltRequest = false ∧ s.ipuStartPending = false ∧ s.ipuDonePending = false

/-- A level that asks to be acknowledged (10_state.md R56). -/
def State.Candidate (s : State) (l : Level) : Prop :=
  s.requesting.getLsbD l.toNat = true ∧ s.levelEnabled l = true ∧ isInterruptLevel l = true

end Sys2Proof.Machine
end

