-- ==== Sys2Proof/WellFormed.lean ====
section
/-! DEFINITION. Which terms of `Instr` are instructions: the terms the decoder can answer. Widths are in the types,
so three checks are left. -/

namespace Sys2Proof

/-- ZR is another name for EOR with both registers equal and is "never selected by the decoder" (30_encoding.md
R148; log 24). BCT and BCF with a zero condition field are BU and BFT (R149). A floating-point word member does
not hold the C bits of the doubleword member (50_floating_point.md R480). -/
def wellFormed : Instr → Bool
  | .lb _ _ => true
  | .lh _ _ => true
  | .lw _ _ => true
  | .ld _ _ => true
  | .lmb _ _ => true
  | .lmh _ _ => true
  | .lmw _ _ => true
  | .lmd _ _ => true
  | .lnb _ _ => true
  | .lnh _ _ => true
  | .lnw _ _ => true
  | .lnd _ _ => true
  | .li _ _ => true
  | .lea _ _ => true
  | .lear _ _ => true
  | .la _ _ => true
  | .lf _ _ => true
  | .stb _ _ => true
  | .sth _ _ => true
  | .stw _ _ => true
  | .std _ _ => true
  | .stmb _ _ => true
  | .stmh _ _ => true
  | .stmw _ _ => true
  | .stmd _ _ => true
  | .stf _ _ => true
  | .zmb _ => true
  | .zmh _ => true
  | .zmw _ => true
  | .zmd _ => true
  | .zr _ => false
  | .tscr _ _ => true
  | .trsc _ _ => true
  | .trr _ _ => true
  | .trrm _ _ => true
  | .trp _ _ => true
  | .tpr _ _ => true
  | .trn _ _ => true
  | .trnm _ _ => true
  | .trc _ _ => true
  | .trcm _ _ => true
  | .xcr _ _ => true
  | .xcrm _ _ => true
  | .trsw _ => true
  | .sea => true
  | .cea => true
  | .lmap _ => true
  | .tmapr _ _ => true
  | .wwcs _ _ => true
  | .rwcs _ _ => true
  | .jwcs _ => true
  | .bu _ => true
  | .bct c _ => decide (c ≠ 0)
  | .bcf c _ => decide (c ≠ 0)
  | .bft _ => true
  | .bl _ => true
  | .bib _ _ _ => true
  | .bih _ _ _ => true
  | .biw _ _ _ => true
  | .bid _ _ _ => true
  | .camb _ _ => true
  | .camh _ _ => true
  | .camw _ _ => true
  | .camd _ _ => true
  | .car _ _ => true
  | .ci _ _ => true
  | .cmmb _ _ => true
  | .cmmh _ _ => true
  | .cmmw _ _ => true
  | .cmmd _ _ => true
  | .cmr _ _ => true
  | .anmb _ _ => true
  | .anmh _ _ => true
  | .anmw _ _ => true
  | .anmd _ _ => true
  | .anr _ _ => true
  | .ormb _ _ => true
  | .ormh _ _ => true
  | .ormw _ _ => true
  | .ormd _ _ => true
  | .orr _ _ => true
  | .orrm _ _ => true
  | .eomb _ _ => true
  | .eomh _ _ => true
  | .eomw _ _ => true
  | .eomd _ _ => true
  | .eor _ _ => true
  | .eorm _ _ => true
  | .nor _ _ => true
  | .nord _ _ => true
  | .scz _ _ => true
  | .sla _ _ => true
  | .sll _ _ => true
  | .slc _ _ => true
  | .slad _ _ => true
  | .slld _ _ => true
  | .sra _ _ => true
  | .srl _ _ => true
  | .src _ _ => true
  | .srad _ _ => true
  | .srld _ _ => true
  | .sbm _ _ => true
  | .sbr _ _ _ => true
  | .zbm _ _ => true
  | .zbr _ _ _ => true
  | .abm _ _ => true
  | .abr _ _ _ => true
  | .tbm _ _ => true
  | .tbr _ _ _ => true
  | .admb _ _ => true
  | .admh _ _ => true
  | .admw _ _ => true
  | .admd _ _ => true
  | .adr _ _ => true
  | .adrm _ _ => true
  | .armb _ _ => true
  | .armh _ _ => true
  | .armw _ _ => true
  | .armd _ _ => true
  | .adi _ _ => true
  | .sumb _ _ => true
  | .sumh _ _ => true
  | .sumw _ _ => true
  | .sumd _ _ => true
  | .sur _ _ => true
  | .surm _ _ => true
  | .sui _ _ => true
  | .mpmb _ _ => true
  | .mpmh _ _ => true
  | .mpmw _ _ => true
  | .mpr _ _ => true
  | .mpi _ _ => true
  | .dvmb _ _ => true
  | .dvmh _ _ => true
  | .dvmw _ _ => true
  | .dvr _ _ => true
  | .dvi _ _ => true
  | .es _ => true
  | .rnd _ => true
  | .adfw _ m => decide (m.addr.extractLsb' 0 2 ≠ 0b10#2)
  | .adfd _ _ => true
  | .sufw _ m => decide (m.addr.extractLsb' 0 2 ≠ 0b10#2)
  | .sufd _ _ => true
  | .mpfw _ m => decide (m.addr.extractLsb' 0 2 ≠ 0b10#2)
  | .mpfd _ _ => true
  | .dvfw _ m => decide (m.addr.extractLsb' 0 2 ≠ 0b10#2)
  | .dvfd _ _ => true
  | .bri _ => true
  | .lpsd _ => true
  | .lcs _ => true
  | .lpsdcm _ => true
  | .exr _ => true
  | .exrr _ => true
  | .exm _ => true
  | .halt => true
  | .wait => true
  | .nop => true
  | .sipu => true
  | .calm _ => true
  | .svc _ _ => true
  | .setcpu _ => true
  | .rdsts _ => true
  | .eae => true
  | .dae => true
  | .ei _ => true
  | .di _ => true
  | .ri _ => true
  | .ai _ => true
  | .dai _ => true
  | .eci _ _ => true
  | .dci _ _ => true
  | .aci _ _ => true
  | .daci _ _ => true
  | .bei => true
  | .uei => true
  | .cd _ _ => true
  | .td _ _ => true
  | .sio _ _ => true
  | .tio _ _ => true
  | .stpio _ _ => true
  | .rschnl _ _ => true
  | .hio _ _ => true
  | .grio _ _ => true
  | .rsctl _ _ => true
  | .ecwcs _ _ => true
  | .wcwcs _ _ => true

end Sys2Proof
end

