-- ==== Sys2Proof/Certificates/Slice0/Obligations.lean ====
section
/-! DEFINITION. The statements for the provers, from the numbered rules of spec/. -/

open Sys2Proof Sys2Proof.Machine

/-! ## Encoding (30_encoding.md) -/

/-- Decoding the encoding of a well-formed instruction gives it back, as a halfword or word and as bytes, whatever
bytes follow; and the decoder answers only well-formed instructions (R140, R144, R148, R149). That the constructor
is the member the static bits name is log 25, and that ZR is not well formed, its word being EOR's, log 24. -/
def Obligations.DecodeEncodeRoundTrip : Prop :=
  (∀ i : Instr, wellFormed i = true →
    decode (encode i) = some i ∧ ∀ rest, decodeBytes ((encode i).bytes ++ rest) = .instr i rest) ∧
  ∀ (c : Code) (i : Instr), decode c = some i → wellFormed i = true

/-- Words the spec writes out decode to the instructions it says they are. -/
def Obligations.SampleWordsDecode : Prop :=
  decode (.word 0xAC90000C) = some (.lw 1 ⟨0, true, 0x00003⟩) ∧
  decode (.word 0xD4080001) = some (.stb 0 ⟨0, false, 0x00001⟩) ∧
  decode (.word 0xC9800004) = some (.li 3 4) ∧
  decode (.half 0x2CA0) = some (.trr 2 1) ∧
  decode (.word 0xFB0F0000) = some (.trp 1 7) ∧
  decode (.half 0x0002) = some .nop ∧
  decode (.half 0x3055) = some (.calm 0x055) ∧
  decode (.half 0x2161) = some (.abr 2 6 1) ∧
  decode (.word 0xEB081A97) = some (.armb 6 ⟨0, false, 0x01A97⟩) ∧
  decode (.word 0xF9803000) = some (.lpsd ⟨0, false, 0x03000⟩) ∧
  decode (.word 0xFD410000) = some (.di 0x28) ∧
  decode (.half 0x0383) = some (.lcs 7)

/-- Bits 9-31 of the encoding of every memory reference instruction are its X, I and address fields as one address
word, with the F and C bits of its member; bits 0-8 are the op code and the register, or what stands for it. BIB to
BID hold X in the op code (R141; 20_memory.md R90, R91; 44_branch.md R297). -/
def Obligations.AddressWordIsEncodedBits : Prop :=
  ∀ r : Reg,
    let head (op : Nat) (r : Reg) : Word := BitVec.ofNat 32 (op * 2 ^ 26 + r.toNat * 2 ^ 23)
    let whole (op : Nat) (r : Reg) (i : MemRef 20 → Instr) : Prop := ∀ m, encode (i m) = .word (head op r ||| m.word)
    let members (op : Nat) (r : Reg) (b : MemRef 19 → Instr) (h : MemRef 18 → Instr) (w d : MemRef 17 → Instr) : Prop :=
      (∀ m, encode (b m) = .word (head op r ||| m.ofByte.word)) ∧ (∀ m, encode (h m) = .word (head op r ||| m.ofHalf.word)) ∧
      (∀ m, encode (w m) = .word (head op r ||| m.ofWord.word)) ∧ (∀ m, encode (d m) = .word (head op r ||| m.ofDouble.word))
    let wide (op : Nat) (b : MemRef 19 → Instr) (h w : MemRef 18 → Instr) : Prop :=
      (∀ m, encode (b m) = .word (head op r ||| m.ofByte.word)) ∧ (∀ m, encode (h m) = .word (head op r ||| m.ofHalf.word)) ∧
      (∀ m, encode (w m) = .word (head op r ||| m.ofWide.word))
    let floats (op : Nat) (f : Bool) (w : MemRef 19 → Instr) (d : MemRef 17 → Instr) : Prop :=
      (∀ m, encode (w m) = .word (head op r ||| (m.ofFixed f).word)) ∧
      (∀ m, encode (d m) = .word (head op r ||| (m.ofFixedDouble f).word))
    members 0x2B r (.lb r) (.lh r) (.lw r) (.ld r) ∧ members 0x2C r (.lmb r) (.lmh r) (.lmw r) (.lmd r) ∧
    members 0x2D r (.lnb r) (.lnh r) (.lnw r) (.lnd r) ∧ members 0x35 r (.stb r) (.sth r) (.stw r) (.std r) ∧
    members 0x36 r (.stmb r) (.stmh r) (.stmw r) (.stmd r) ∧ members 0x3E 0 .zmb .zmh .zmw .zmd ∧
    members 0x24 r (.camb r) (.camh r) (.camw r) (.camd r) ∧ members 0x25 r (.cmmb r) (.cmmh r) (.cmmw r) (.cmmd r) ∧
    members 0x21 r (.anmb r) (.anmh r) (.anmw r) (.anmd r) ∧ members 0x22 r (.ormb r) (.ormh r) (.ormw r) (.ormd r) ∧
    members 0x23 r (.eomb r) (.eomh r) (.eomw r) (.eomd r) ∧ members 0x2E r (.admb r) (.admh r) (.admw r) (.admd r) ∧
    members 0x3A r (.armb r) (.armh r) (.armw r) (.armd r) ∧ members 0x2F r (.sumb r) (.sumh r) (.sumw r) (.sumd r) ∧
    wide 0x30 (.mpmb r) (.mpmh r) (.mpmw r) ∧ wide 0x31 (.dvmb r) (.dvmh r) (.dvmw r) ∧
    floats 0x38 true (.adfw r) (.adfd r) ∧ floats 0x38 false (.sufw r) (.sufd r) ∧
    floats 0x39 true (.mpfw r) (.mpfd r) ∧ floats 0x39 false (.dvfw r) (.dvfd r) ∧
    whole 0x34 r (.lea r) ∧ whole 0x20 r (.lear r) ∧ whole 0x0D r (.la r) ∧ whole 0x33 r (.lf r) ∧ whole 0x37 r (.stf r) ∧
    whole 0x26 r (.sbm r) ∧ whole 0x27 r (.zbm r) ∧ whole 0x28 r (.abm r) ∧ whole 0x29 r (.tbm r) ∧
    whole 0x3B 0 .bu ∧ whole 0x3B r (.bct r) ∧ whole 0x3C r (.bcf r) ∧ whole 0x3C 0 .bft ∧
    whole 0x3E 1 .bl ∧ whole 0x3E 2 .bri ∧ whole 0x3E 3 .lpsd ∧ whole 0x3E 4 .jwcs ∧ whole 0x3E 5 .lpsdcm ∧
    (∀ m, encode (.exm m) = .word (head 0x2A 0 ||| (m.ofFixed false).word)) ∧
    (∀ ind a, encode (.bib r ind a) = .word (head 0x3D r ||| MemRef.word ⟨0, ind, a⟩) ∧
      encode (.bih r ind a) = .word (head 0x3D r ||| MemRef.word ⟨1, ind, a⟩) ∧
      encode (.biw r ind a) = .word (head 0x3D r ||| MemRef.word ⟨2, ind, a⟩) ∧
      encode (.bid r ind a) = .word (head 0x3D r ||| MemRef.word ⟨3, ind, a⟩))

/-! ## Memory (20_memory.md) -/

/-- A byte, halfword or word written is read back, the most significant byte at the lowest address, and every byte
outside it reads as before (R81, R82). That addresses wrap modulo 2^24 is log 30. -/
def Obligations.MemoryReadAfterWrite : Prop :=
  ∀ (s : State) (a : Addr), s.MemoryInv →
    (∀ b, Memory.read (s.poke8 a b).mem a.toNat = b ∧ SameBytesOutside s (s.poke8 a b) a 1) ∧
    (∀ v, Memory.read16 (s.poke16 a v).mem a = v ∧ Memory.read (s.poke16 a v).mem a.toNat = BitVec.ofNat 8 (v.toNat / 2 ^ 8) ∧
      SameBytesOutside s (s.poke16 a v) a 2) ∧
    (∀ v, Memory.read32 (s.poke32 a v).mem a = v ∧ Memory.read (s.poke32 a v).mem a.toNat = BitVec.ofNat 8 (v.toNat / 2 ^ 24) ∧
      Memory.read (s.poke32 a v).mem (a + 3).toNat = BitVec.ofNat 8 v.toNat ∧ SameBytesOutside s (s.poke32 a v) a 4)

/-- Logical to real: itself while unmapped; while mapped the valid map register's 9-bit block number before the low
15 bits, and no address from X'100000' on (R100). Write protection by the map register or the page protect register
(R105). The checks of one access in order: translation, protection, presence, parity (R110 to R114). The order of
the checks and the fault at and beyond X'100000' are the spec's decision D21, the layout of a map register its
decision D6, which the model follows (log 28). That every byte of the access must be present is log 37. -/
def Obligations.TranslationAndProtection : Prop :=
  ∀ (s : State) (la : Addr),
    (s.mapped = false → s.translate la = some la) ∧
    (s.mapped = true → 0x100000 ≤ la.toNat → s.translate la = none) ∧
    (s.mapped = true → ∀ (i : Nat) (h : i < 32), la.toNat / 0x8000 = i →
      s.translate la = if s.map[i].toNat < 0x8000 then none
        else some (BitVec.ofNat 24 (s.map[i].toNat % 512 * 0x8000 + la.toNat % 0x8000))) ∧
    (s.priv = true → s.writeProtected la = false) ∧
    (s.priv = false → s.mapped = true → ∀ (i : Nat) (h : i < 32), la.toNat / 0x8000 = i →
      s.writeProtected la = s.map[i].getLsbD 14) ∧
    (s.priv = false → s.mapped = false → 0x80000 ≤ la.toNat → s.writeProtected la = false) ∧
    (s.priv = false → s.mapped = false → ∀ (p : Nat) (h : p < 16), la.toNat / 0x8000 = p →
      s.writeProtected la = s.prot[p].getLsbD (la.toNat / 0x800 % 16)) ∧
    (∀ k n, s.translate la = none → s.locate k la n = .error (.mapFault false)) ∧
    (∀ pa, s.translate la = some pa →
      (∀ n, s.writeProtected la = true → s.locate .write la n = .error .privilege) ∧
      (∀ n, s.writeProtected la = false → s.present pa n = false → s.locate .write la n = .error (.nonpresent false)) ∧
      (∀ n, s.writeProtected la = false → s.present pa n = true → s.locate .write la n = .ok pa) ∧
      (∀ n, s.present pa n = false → s.locate .read la n = .error (.nonpresent false) ∧
        s.locate .fetch la n = .error (.nonpresent true)) ∧
      (∀ n, s.present pa n = true → s.parityAt pa n = true → s.locate .read la n = .error (.memoryParity false) ∧
        s.locate .fetch la n = .error (.memoryParity true)) ∧
      (∀ n, s.present pa n = true → s.parityAt pa n = false → s.locate .read la n = .ok pa ∧ s.locate .fetch la n = .ok pa))

/-- The effective address of a direct reference, and of one indirect level to a direct word: the field plus the
index, modulo 2^19, or modulo 2^24 with extended addressing; the indirect word is fetched from a word of the primary
space (R90, R93). The operand then follows from the effective F bit and the two low bits of the address (R91). The
primary space for the indirect word and the F bit after the carry of the index are the spec's decision D20, which
the model follows (log 28). -/
def Obligations.EffectiveAddressAndOperand : Prop :=
  (∀ e : Effective,
    (e.ef = true → e.operand = .byte e.ea) ∧
    (e.ef = false → e.ea.toNat % 4 = 0 → e.operand = .word e.ea) ∧
    (e.ef = false → e.ea.toNat % 2 = 1 → e.operand = .half (BitVec.ofNat 24 (e.ea.toNat / 2 * 2))) ∧
    (e.ef = false → e.ea.toNat % 4 = 2 → e.operand = .double (BitVec.ofNat 24 (e.ea.toNat / 8 * 8)))) ∧
  ∀ (s : State) (x : BitVec 2) (f : BitVec 20),
    (∃ e, s.effective (MemRef.word ⟨x, false, f⟩) = .ok e s ∧
      e.ea.toNat = levelAddress s.ext f.toNat (s.indexNumber x) ∧ e.ef = levelFormat s.ext f.toNat (s.indexNumber x)) ∧
    (∀ w : Word, w.getLsbD 20 = false → s.Alone →
      s.ReadsWord (BitVec.ofNat 24 (levelAddress s.ext f.toNat (s.indexNumber x) / 4 * 4 % 2 ^ 19)) w →
      ∃ e b, s.effective (MemRef.word ⟨x, true, f⟩) = .ok e (s.withStop b) ∧ e.word = w ∧
        e.ea.toNat = levelAddress s.ext (w.toNat % 2 ^ 20) (s.indexNumber (w.extractLsb' 21 2)) ∧
        e.ef = levelFormat s.ext (w.toNat % 2 ^ 20) (s.indexNumber (w.extractLsb' 21 2)))

/-! ## The step -/

/-- A step that passes its boundary runs the instruction the bytes at the program counter decode to, with the
program counter moved past it; an encoding of no instruction, and a word instruction in a right halfword, raise
Undefined Instruction (10_state.md R30, R37; 30_encoding.md R148, R160). The bytes are read as bus agents leave them
before the fetch (log 1). Where the fetch fails (a Map Fault, absent memory, a parity error), its trap is raised
with the program counter at the instruction (60_exceptions.md R654), or past it where PSW mode drops the trap (R622;
the length then counted is log 39). The trap of a word instruction in a right halfword is the spec's decision D2,
the wrap of the program counter its decision D3, the halfword length of the op codes 010010 to 010111 its decision
D34, and the advanced program counter a trap stores its decision D36, which the model follows (log 28). -/
def Obligations.StepRunsDecoded : Prop :=
  ∀ s s1 : State, s.inputs = [] → s.runState = .run → boundary s = .pass s1 → s1.runState = .run →
    let after (o : Outcome) : Outcome := mirrorOutcome s (finishOutcome s1.blocked o)
    let found : State := s1.transact
    let past (t : State) (n : BitVec 18) : State := { t with
      pc := s1.pc + n, hist := s1.pc.getLsbD 0, instrPc := s1.pc, abandoned := false, noHalt := false }
    let fails (t : Trap) (n : BitVec 18) : Prop :=
      let dropped : Prop := s1.cfg.role = .cpu ∧ s1.mode = .psw ∧ s1.pswEnters t = none
      (¬dropped → step s = after (raise t { found with abandoned := false, noHalt := false })) ∧
      (dropped → step s = after (raise t (past found n)))
    (∀ t, found.locate .fetch s1.pcAddr 2 = .error t → fails t 1) ∧
    ∀ pa, found.locate .fetch s1.pcAddr 2 = .ok pa →
      let half := Memory.read16 found.mem pa
      let at_ (n : BitVec 18) : State := past (found.noteFetch pa) n
      (isHalfword half = true → ∀ i, decode (.half half) = some i → step s = after (exec i (at_ 1))) ∧
      (isHalfword half = true → decode (.half half) = none → step s = after (raise .undefined (at_ 1))) ∧
      (isHalfword half = false → s1.pc.getLsbD 0 = true → step s = after (raise .undefined (at_ 1))) ∧
      (isHalfword half = false → s1.pc.getLsbD 0 = false →
        (∀ t, found.locate .fetch s1.pcAddr 4 = .error t → fails t 2) ∧
        (found.locate .fetch s1.pcAddr 4 = .ok pa →
          (∀ i, decode (.word (Memory.read32 found.mem pa)) = some i → step s = after (exec i (at_ 2))) ∧
          (decode (.word (Memory.read32 found.mem pa)) = none → step s = after (raise .undefined (at_ 2)))))

/-- An interrupt level can be acknowledged when it is requesting and enabled, no level of its priority or a higher
one is active, and in PSD mode interrupts are not blocked; the lowest such level wins, and with none the boundary
passes. `NONINT` suppresses exactly one boundary (10_state.md R56, R61; 60_exceptions.md R621, R650, R661). That a
Class F channel's level is acknowledged in PSW mode like any other is the model's choice (log 38). -/
def Obligations.AcknowledgedLevel : Prop :=
  ∀ (s : State),
    (∀ l, s.eligible = some l ↔
      s.Candidate l ∧ (∀ k, k ≤ l.toNat → s.active.getLsbD k = false) ∧ ∀ k : Level, k.toNat < l.toNat → ¬s.Candidate k) ∧
    (s.Quiet → s.cfg.role = .cpu →
      (s.nonint = true → boundary s = .pass { s with nonint := false }) ∧
      (s.nonint = false → s.mode = .psd → s.blocked = true → boundary s = .pass s) ∧
      (s.nonint = false → ¬(s.mode = .psd ∧ s.blocked = true) →
        (∀ l, s.eligible = some l → boundary s = .entered (.next (interruptEntry l s))) ∧
        (s.eligible = none → boundary s = .pass s)))

/-- The watchdog: a completed instruction counts while interrupts were blocked before it and still are, on a CPU and
on an IPU; more than 128 of them with the timeout enabled make the Block Mode Timeout pending on a CPU
(60_exceptions.md R662; 10_state.md R21, R58). That an IPU has no such trap is the spec's decision D40 (log 28).
That completed instructions count, and that the count starts anew, is the spec's decision D38, which the model
follows (log 28); that an instruction a trap ended does not count is log 16. -/
def Obligations.WatchdogCounts : Prop :=
  ∀ (s : State) (was : Bool), s.mode = .psd → s.abandoned = false →
    let t := s.finishInstruction was
    (s.blocked = false → t.blockCount = 0) ∧
    (s.blocked = true → t.blockCount = s.blockCount + was.toNat) ∧
    (t.pendingTimeout = true ↔
      s.pendingTimeout = true ∨ (s.cfg.role = .cpu ∧ s.bmtoEnabled = true ∧ s.blocked = true ∧ 128 < t.blockCount))

/-! ## Invariants -/

/-- Every reset state satisfies the invariant of the machine, whatever the installation. -/
def Obligations.ResetInv : Prop := ∀ c : Config, (State.resetFor c).Inv

/-- Every step keeps memory and WCS in their canonical form. -/
def Obligations.StepKeepsMemoryForm : Prop := ∀ s t : State, s.MemoryInv → step s = .next t → t.MemoryInv

/-- Every step keeps the control modes legal, an IPU in PSD mode and PSW mode unmapped, and ends with no Execute in
progress, the memory lock free, and bits 47-49 of PSD word 2 zero (10_state.md R31, R33, R60, R32; 20_memory.md
R120). That bit 47 is stored as zero is the spec's decision D4, which the model follows (log 28). -/
def Obligations.StepKeepsModesAndRest : Prop :=
  ∀ s t : State, s.ModeInv → s.RestInv → step s = .next t → t.ModeInv ∧ t.RestInv

/-- No instruction but one that loads a PSD changes the privileged state, unless it traps (10_state.md R35). -/
def Obligations.PrivChangesByPsdLoadAlone : Prop :=
  ∀ (i : Instr) (s t : State), mayLoadPsd i = false → exec i s = .next t → t.abandoned = false → t.priv = s.priv

/-- No instruction but SETCPU changes the control mode, its traps included, and none changes the configuration
(10_state.md R31; 00_scope.md R7). -/
def Obligations.ModeChangesBySetcpuAlone : Prop :=
  ∀ (i : Instr) (s t : State), exec i s = .next t →
    t.cfg = s.cfg ∧
    ((∀ r, i ≠ .setcpu r ∧ i ≠ .exr r ∧ i ≠ .exrr r) → (∀ m, i ≠ .exm m) → t.mode = s.mode)

/-! ## Frames -/

/-- An ordinary instruction that does not trap changes nothing but registers, condition code, program counter and
memory, a pending arithmetic exception, with it on an IPU status bit 23 (60_exceptions.md R640), and the model's own
marks, whatever bus agents do meanwhile. -/
def Obligations.OrdinaryInstructionFrame : Prop :=
  ∀ (i : Instr) (s t : State), isOrdinary i = true → exec i s = .next t → t.abandoned = false →
    t = { s with
      regs := t.regs, cc := t.cc, pc := t.pc, mem := t.mem, parityBad := t.parityBad, spad := t.spad,
      pendingArith := t.pendingArith, memLock := t.memLock, noHalt := t.noHalt, stopHit := t.stopHit, freeIx := t.freeIx, bus := t.bus } ∧
    (t.spad = s.spad ∨
      (s.cfg.role = .ipu ∧ s.aexp = true ∧ t.pendingArith = true ∧ t.spad = s.spad.set 0x91 (s.status ||| 0x100)))

/-- An instruction that stores nothing leaves every byte of memory, unless it traps or a bus agent writes. -/
def Obligations.NonStoringKeepsMemory : Prop :=
  ∀ (i : Instr) (s t : State), s.Alone → mayStore i = false → exec i s = .next t → t.abandoned = false → SameBytes s t

/-- An instruction that stores a byte, a halfword, a word, two words, a register file, a bit or a WCS word, and does
not trap, changes no byte outside its operand while no bus agent writes (20_memory.md R82; 40_load_store.md R218 to
R230; 48_bit_manipulation.md R401, R403, R405; 49_fixed_point.md R428 to R431; 43_wcs.md R282). The wrap of RWCS's
second word is log 23. -/
def Obligations.StoreFrame : Prop :=
  ∀ s t : State, s.MemoryInv → s.Alone → t.abandoned = false →
    let outside (ph pl : Addr) : Prop :=
      ∀ x : Addr, (∀ k, k < 4 → x ≠ ph + BitVec.ofNat 24 k) → (∀ k, k < 4 → x ≠ pl + BitVec.ofNat 24 k) →
        Memory.read t.mem x.toNat = Memory.read s.mem x.toNat
    let frame (i : Instr) (w : Word) : Prop := exec i s = .next t →
      s.OnWrite w (fun pa => SameBytesOutside s t pa 1) (fun pa => SameBytesOutside s t pa 2)
        (fun pa => SameBytesOutside s t pa 4) outside
    (∀ r m, frame (.stb r m) m.ofByte.word ∧ frame (.stmb r m) m.ofByte.word ∧ frame (.zmb m) m.ofByte.word ∧
      frame (.armb r m) m.ofByte.word) ∧
    (∀ r m, frame (.sth r m) m.ofHalf.word ∧ frame (.stmh r m) m.ofHalf.word ∧ frame (.zmh m) m.ofHalf.word ∧
      frame (.armh r m) m.ofHalf.word) ∧
    (∀ r m, frame (.stw r m) m.ofWord.word ∧ frame (.stmw r m) m.ofWord.word ∧ frame (.zmw m) m.ofWord.word ∧
      frame (.armw r m) m.ofWord.word) ∧
    (∀ r m, frame (.std r m) m.ofDouble.word ∧ frame (.stmd r m) m.ofDouble.word ∧ frame (.zmd m) m.ofDouble.word ∧
      frame (.armd r m) m.ofDouble.word) ∧
    (∀ (r : Reg) (m : MemRef 20) (e : Effective) (s1 : State) (p : Nat → Addr), s.effective m.word = .ok e s1 →
      (∀ k, k < 8 - r.toNat → s.locate .write (fileAddress e.ea k) 4 = .ok (p k)) → exec (.stf r m) s = .next t →
      ∀ x : Addr, (∀ k j, k < 8 - r.toNat → j < 4 → x ≠ p k + BitVec.ofNat 24 j) →
        Memory.read t.mem x.toNat = Memory.read s.mem x.toNat) ∧
    (∀ (c : BitVec 3) (m : MemRef 20) (e : Effective) (s1 : State) (pa : Addr), s.effective m.word = .ok e s1 →
      (exec (.sbm c m) s = .next t ∨ exec (.zbm c m) s = .next t → s.locate .write e.ea 1 = .ok pa →
        SameBytesOutside s t pa 1) ∧
      (exec (.abm c m) s = .next t → s.locate .write (BitVec.ofNat 24 (e.ea.toNat / 4 * 4)) 4 = .ok pa →
        SameBytesOutside s t pa 4)) ∧
    (∀ (sr d : Reg) (ph pl : Addr), exec (.rwcs sr d) s = .next t → s.locate .write (s.wcsOperand (s.reg d)) 4 = .ok ph →
      s.locate .write (s.wcsOperandNext (s.reg d)) 4 = .ok pl → outside ph pl)

/-! ## Privilege, traps and interrupts (60_exceptions.md) -/

/-- The checks before an instruction: one of PSD mode alone is undefined in PSW mode, and one an IPU does not
implement is undefined there, whatever the privilege; past these, a privileged instruction in the unprivileged state
raises Privilege Violation, as WAIT does on an IPU (R630, R631; 30_encoding.md R148, R170, R171; 51_control.md
R510). -/
def Obligations.ChecksBeforeExecution : Prop :=
  ∀ (i : Instr) (s : State),
    (isPsdOnly i = true → s.mode = .psw → exec i s = raise .undefined s) ∧
    (isCpuOnly i = true → s.cfg.role = .ipu → exec i s = raise .undefined s) ∧
    (s.priv = false → isPrivileged i = true → (isPsdOnly i = true → s.mode = .psd) →
      (isCpuOnly i = true → s.cfg.role = .cpu) → (∀ d, i = .rdsts d → s.cfg.psdJumper = true) →
      exec i s = raise .privilege s) ∧
    (s.priv = false → s.cfg.role = .ipu → exec .wait s = raise .privilege s)

/-- The vector locations of the traps and of the interrupt levels (R621). -/
def Obligations.VectorTable : Prop :=
  Trap.vector .powerFail = 0x0F4 ∧ (∀ f, Trap.vector (.memoryParity f) = 0x0E8) ∧ (∀ f, Trap.vector (.nonpresent f) = 0x190) ∧
  Trap.vector .undefined = 0x194 ∧ Trap.vector .privilege = 0x198 ∧ (∀ c, Trap.vector (.machineCheck c) = 0x184) ∧
  (∀ f, Trap.vector (.systemCheck f) = 0x188) ∧ (∀ f, Trap.vector (.mapFault f) = 0x18C) ∧
  Trap.vector .blockTimeout = 0x0E4 ∧ Trap.vector .arithmetic = 0x1A4 ∧ Trap.vector .endOfIpu = 0x2E0 ∧
  levelVector 0x00 = 0x0F0 ∧ levelVector 0x01 = 0x0F8 ∧ levelVector 0x12 = 0x0E8 ∧ levelVector 0x13 = 0x0EC ∧
  (∀ l : Level, 0x14 ≤ l.toNat → l.toNat ≤ 0x23 → (levelVector l).toNat = 0x140 + 4 * (l.toNat - 0x14)) ∧
  (∀ l : Level, 0x24 ≤ l.toNat → (levelVector l).toNat = 0x190 + 4 * (l.toNat - 0x24))

/-- A trap in PSD mode on a CPU: the context block its vector points to receives the old PSD and the status word,
nothing else of memory changes, the new PSD is loaded with the map it names, the status word's error bits are
cleared, and a waiting processor runs (R650, R651, R653, R655; 20_memory.md R101, R102). The zero display bits of
the stored PSD, the fields of the process's descriptors, and the stored program counter are the spec's decisions D4,
D22 and D36, which traps arm its decision D38, which the model follows (log 28). -/
def Obligations.TrapEntryInPsdMode : Prop :=
  ∀ (s : State) (t : Trap) (v n1 n2 : Word) (m : Vector Half 32), s.MemoryInv → s.Alone → s.cfg.role = .cpu → s.mode = .psd →
    (t.arming = true → s.trapsEnabled = true) → s.realRead t.vector = .ok v → s.BlockAt (v.extractLsb' 0 24) n1 n2 →
    let fifth : Word := ((s.status ||| t.statusBits .psd) &&& 0xFFFFFF1E) ||| s.liveBits
    s.EntryMap s (v.extractLsb' 0 24) fifth n2 m →
    ∃ u, raise t s = .next u ∧ u.LoadedPsd s n1 n2 ∧ u.StoredPsd s (v.extractLsb' 0 24) ∧
      Memory.read32 u.mem (v.extractLsb' 0 24 + 16) = fifth ∧
      SameOutsideBlock s u (v.extractLsb' 0 24) ∧ u.status &&& 0xFFFFFF00 = 0 ∧
      u.regs = s.regs ∧ u.map = m ∧ u.prot = s.prot ∧
      u.enabled = s.enabled ∧ u.requesting = s.requesting ∧ u.active = s.active ∧
      u.runState = (if s.runState = .wait then .run else s.runState)

/-- An arming trap while traps are not enabled halts the machine: the old PSD and the status word go to the store
area, the program counter holds the vector's address (R670, R671; 20_memory.md R130). Which traps arm, and the zero
display bits of the stored PSD, are the spec's decisions D38 and D4, which the model follows (log 28). -/
def Obligations.TrapHaltWhileNotEnabled : Prop :=
  ∀ (s : State) (t : Trap), s.MemoryInv → s.Alone → s.cfg.role = .cpu → s.mode = .psd → t.arming = true → s.trapsEnabled = false →
    s.present 0x530 20 = true →
    ∃ u, raise t s = .next u ∧ u.runState = .halt ∧ u.pc.toNat * 2 = t.vector.toNat ∧
      Memory.read32 u.mem 0x530 = BitVec.ofNat 32 s.psd1Number ∧
      Memory.read32 u.mem 0x534 = s.psd2 ||| (if s.blocked then 0x4000 else 0) ∧
      Memory.read32 u.mem 0x538 = ((s.status ||| t.statusBits .psd) &&& 0xFFFFFF1E) ||| s.liveBits ∧
      (∀ x : Addr, (x.toNat < 0x530 ∨ 0x544 ≤ x.toNat) → Memory.read u.mem x.toNat = Memory.read s.mem x.toNat) ∧
      u.regs = s.regs ∧ u.priv = s.priv ∧ u.cc = s.cc ∧ u.ext = s.ext ∧ u.mode = s.mode ∧ u.panel.trapHaltLight = true

/-- A trap in PSW mode is an interrupt of the first RTOM: entered while its level can be acknowledged, with the old
PSW stored and the new one loaded, and else dropped with its status bit set (R622, R652). The two-word context block
is the spec's decision D35, which the model follows (log 28). The stored program counter is its decision D36. -/
def Obligations.TrapsInPswMode : Prop :=
  ∀ (s : State) (t : Trap) (l : Level), s.cfg.role = .cpu → s.mode = .psw →
    ((∃ f, t = .memoryParity f) ∧ l = 0x12 ∨ (∃ f, t = .nonpresent f) ∧ l = 0x24 ∨ t = .undefined ∧ l = 0x25 ∨
      t = .privilege ∧ l = 0x26 ∨ t = .arithmetic ∧ l = 0x29) →
    let open_ : Prop := s.levelEnabled l = true ∧ l ∈ s.cfg.levels ∧
      (∀ k, k ≤ l.toNat → s.active.getLsbD k = false) ∧ ∀ k, k < l.toNat → s.requesting.getLsbD k = false
    (s.active.getLsbD l.toNat = true ∨ s.levelEnabled l = false ∨ l ∉ s.cfg.levels ∨
        (∃ k, k < l.toNat ∧ (s.active.getLsbD k = true ∨ s.requesting.getLsbD k = true)) →
      ∃ u, raise t s = .next u ∧ u.regs = s.regs ∧ u.mem = s.mem ∧ u.pc = s.pc ∧ u.cc = s.cc ∧ u.priv = s.priv ∧
        u.active = s.active ∧ u.requesting = s.requesting ∧ u.status = s.status ||| t.statusBits .psw) ∧
    (open_ → s.MemoryInv → s.Alone → ∀ v n, s.realRead (levelVector l) = .ok v → s.present (v.extractLsb' 0 24) 4 = true →
      s.realRead (v.extractLsb' 0 24 + 4) = .ok n →
      ∃ u, raise t s = .next u ∧ u.regs = s.regs ∧
        Memory.read32 u.mem (v.extractLsb' 0 24) = BitVec.ofNat 32 s.psd1Number ∧
        SameBytesOutside s u (v.extractLsb' 0 24) 4 ∧
        u.priv = n.getLsbD 31 ∧ u.cc = n.extractLsb' 27 4 ∧ u.ext = n.getLsbD 26 ∧ u.pc = n.extractLsb' 1 18 ∧
        u.active = s.active ||| (1#128 <<< l.toNat) ∧ u.requesting = s.requesting &&& ~~~(1#128 <<< l.toNat) ∧
        u.nonint = true)

/-- Every trap on an IPU other than its own services is the IPU error trap: the context block of vector X'2EC'
receives the old PSD and the status word, and the new PSD is loaded with the map it names (R681, R682; 20_memory.md
R101, R102). Sending Map Fault, Machine Check and System Check there too is the spec's decision D40, which the model
follows (log 28, log 20); which status bits are reported is log 36. The stored PSD and the map load rest on the
spec's decisions D4, D22 and D36. -/
def Obligations.IpuErrorTrap : Prop :=
  ∀ (s : State) (t : Trap) (v n1 n2 : Word) (m : Vector Half 32), s.MemoryInv → s.Alone → s.cfg.role = .ipu → s.mode = .psd →
    s.realRead 0x2EC = .ok v → s.BlockAt (v.extractLsb' 0 24) n1 n2 →
    let fifth : Word := ((s.status ||| t.ipuStatusBits) &&& 0xFFFFFF1E) ||| s.liveBits
    s.EntryMap s (v.extractLsb' 0 24) fifth n2 m →
    ∃ u, raise t s = .next u ∧ u.LoadedPsd s n1 n2 ∧ u.StoredPsd s (v.extractLsb' 0 24) ∧
      Memory.read32 u.mem (v.extractLsb' 0 24 + 16) = fifth ∧
      SameOutsideBlock s u (v.extractLsb' 0 24) ∧ u.status &&& 0xFFFFFF00 = 0 ∧
      u.regs = s.regs ∧ u.map = m ∧ u.runState = .run ∧ u.ipuDonePending = s.ipuDonePending

/-- A pending Block Mode Timeout or arithmetic exception is entered at the next boundary, through its own vector,
before any interrupt; the new PSD is loaded with the map it names (R650, R640, R662; 20_memory.md R101, R102). The
order of the traps, the entry without regard to the enabling of traps, the stored PSD and the map load rest on the
spec's decisions D4, D22, D36, D37 and D38, which the model follows (log 28); that the trap waits for the boundary
is log 15. -/
def Obligations.PendingTrapsEntered : Prop :=
  ∀ (s : State) (timeout : Bool) (v n1 n2 : Word) (m : Vector Half 32), s.MemoryInv → s.Alone → s.inputs = [] →
    s.cfg.role = .cpu → s.mode = .psd → s.runState = .run → s.pendingPower = false → s.pendingTimeout = timeout → (timeout = false → s.pendingArith = true) →
    s.realRead (if timeout then 0x0E4 else 0x1A4) = .ok v → s.BlockAt (v.extractLsb' 0 24) n1 n2 →
    let fifth : Word := (s.status &&& 0xFFFFFF1E) ||| s.liveBits
    s.EntryMap s (v.extractLsb' 0 24) fifth n2 m →
    ∃ u, step s = .next u ∧ u.LoadedPsd s n1 n2 ∧ u.StoredPsd s (v.extractLsb' 0 24) ∧
      Memory.read32 u.mem (v.extractLsb' 0 24 + 16) = fifth ∧ SameOutsideBlock s u (v.extractLsb' 0 24) ∧
      u.regs = s.regs ∧ u.map = m ∧ u.active = s.active ∧ u.pendingTimeout = false ∧
      u.pendingArith = (s.pendingArith && timeout)

/-- Acknowledging a level in PSD mode: the request is consumed, the old PSD stored and the new one loaded with the
map it names; with bits 48-49 = 01 the level does not go active, else it does and the handler's first instruction is
protected (R650, R651, R652; 20_memory.md R101, R102). For the level of a Class F channel, the channel stores its
two status words, free values but for bits 30-31 of the first, at an address it chooses, which goes to word 6 of the
block (53_input_output.md R594; log 10). The stored PSD and the map load rest on the spec's decisions D4 and D22,
which the model follows (log 28). -/
def Obligations.InterruptEntryInPsdMode : Prop :=
  ∀ (s : State) (l : Level) (v n1 n2 : Word) (m : Vector Half 32), s.MemoryInv → s.Alone → s.Quiet → s.cfg.role = .cpu →
    s.mode = .psd → s.runState = .run ∨ s.runState = .wait → s.nonint = false → s.blocked = false → s.eligible = some l →
    s.realRead (levelVector l) = .ok v →
    let icb : Addr := v.extractLsb' 0 24
    let first : State := s.storedPsd s icb
    let enters (u : State) : Prop := u.LoadedPsd s n1 n2 ∧ u.regs = s.regs ∧ u.map = m ∧ u.runState = .run ∧
      u.requesting = s.requesting &&& ~~~(1#128 <<< l.toNat) ∧ u.enabled = s.enabled ∧
      (if n2.toNat / 0x4000 % 4 = 1 then u.active = s.active ∧ u.nonint = false
       else u.active = s.active ||| (1#128 <<< l.toNat) ∧ u.nonint = true)
    s.present icb 4 = true → s.present (icb + 4) 4 = true →
    (Config.classFLevel s.cfg l = none → s.realRead (icb + 8) = .ok n1 → s.realRead (icb + 12) = .ok n2 → first.NewMap n2 m →
      ∃ u, step s = .next u ∧ u.StoredPsd s icb ∧ SameBytesOutside s u icb 8 ∧ enters u) ∧
    (∀ ch, Config.classFLevel s.cfg l = some ch → s.present (icb + 20) 4 = true →
      let st := Config.channelStatus s.freeIx ch.device
      let second : State :=
        ((first.realWriteOrLose st.addr (st.word1 &&& 0xFFFFFFFC)).realWriteOrLose (st.addr + 4) st.word2).poke32 (icb + 20)
          (BitVec.ofNat 32 st.addr.toNat)
      second.realRead (icb + 8) = .ok n1 → second.realRead (icb + 12) = .ok n2 → second.NewMap n2 m →
      ∃ u, step s = .next u ∧ u.mem = second.mem ∧
        Memory.read32 u.mem (icb + 20) = BitVec.ofNat 32 st.addr.toNat ∧ enters u)

/-- Acknowledging a level in PSW mode (R652). The two-word block is the spec's decision D35, which the model follows
(log 28). That a Class F channel's level is acknowledged in PSW mode like any other is the model's choice (log 38).
-/
def Obligations.InterruptEntryInPswMode : Prop :=
  ∀ (s : State) (l : Level) (v n : Word), s.MemoryInv → s.Alone → s.Quiet → s.cfg.role = .cpu → s.mode = .psw →
    s.runState = .run ∨ s.runState = .wait → s.nonint = false → s.eligible = some l →
    s.realRead (levelVector l) = .ok v → s.present (v.extractLsb' 0 24) 4 = true → s.realRead (v.extractLsb' 0 24 + 4) = .ok n →
    ∃ u, step s = .next u ∧ Memory.read32 u.mem (v.extractLsb' 0 24) = BitVec.ofNat 32 s.psd1Number ∧
      SameBytesOutside s u (v.extractLsb' 0 24) 4 ∧ u.regs = s.regs ∧ u.runState = .run ∧
      u.priv = n.getLsbD 31 ∧ u.cc = n.extractLsb' 27 4 ∧ u.ext = n.getLsbD 26 ∧ u.hist = n.getLsbD 25 ∧
      u.pc = n.extractLsb' 1 18 ∧ u.requesting = s.requesting &&& ~~~(1#128 <<< l.toNat) ∧
      u.active = s.active ||| (1#128 <<< l.toNat) ∧ u.nonint = true

/-- The SYSTEM RESET key in the Halt state: general registers, protection, map and level latches cleared, the
privileged state set, the processor unmapped and halted, traps disabled, the map list pointer zero; memory and WCS
unchanged (10_state.md R48, R70; 70_reset_and_hazards.md R700, R702). Zero for what the manual does not name is the
spec's decision D5, which the model follows (log 3, log 4, log 28). -/
def Obligations.SystemResetKey : Prop :=
  ∀ (s : State), s.inputs = [.systemResetKey] → s.cfg.role = .cpu → s.runState = .halt → s.panel.locked = false →
    ∃ t, step s = .next t ∧ (∀ r, t.reg r = 0) ∧ (∀ k (h : k < 16), t.prot[k] = 0) ∧ (∀ k (h : k < 32), t.map[k] = 0) ∧
      t.mapped = false ∧ t.priv = true ∧ t.cc = 0 ∧ t.ext = false ∧ t.hist = false ∧ t.aexp = false ∧ t.pc = 0 ∧ t.psd2 = 0 ∧
      t.blocked = false ∧ t.blockCount = 0 ∧ t.nonint = false ∧ t.trapsEnabled = false ∧ t.bmtoEnabled = false ∧
      t.enabled = 0 ∧ t.requesting = 0 ∧ t.active = 0 ∧ t.runState = .halt ∧ t.status &&& 0xFFFFFF00 = 0 ∧
      (s.cfg.spadMpl ≠ 0x91 → t.mplAddr = 0) ∧
      t.mode = (if s.cfg.psdJumper then .psd else .psw) ∧ t.mem = s.mem ∧ t.wcs = s.wcs ∧ t.csw = s.csw ∧ t.cfg = s.cfg ∧
      t.inputs = []

/-! ## Load and Store (40_load_store.md) -/

/-- The load family, the masked loads and the negative loads complete with the operand extended to a word, masked by
R4, or negated; a doubleword fills the pair; the condition code is the sign of what is loaded, CC1 an overflow of
the negation (R201 to R212). Where the operand cannot be read, the trap of the failing access is raised with no
register written, or, where only the second word of LD or LMD fails, the odd register alone (20_memory.md R114; the
order of checks is the spec's decision D21). What a bus agent writes between the two word accesses of LD is seen by
the second alone (R120; 53_input_output.md R572; log 1). An odd register number in LD, LMD and LND names the pair it
lies in, the spec's decision D1, which the model follows, as it does decision D24, that LMD reads its mask before it
writes (log 28). -/
def Obligations.LoadsComplete : Prop :=
  ∀ (s : State) (r : Reg),
    let into (v : Word) : State := (s.setReg r v).setCc (signCc false v.toInt)
    let pairOf (t : State) (v : Double) : State :=
      ((t.setReg (r &&& 6) (v.extractLsb' 32 32)).setReg (r ||| 1) (v.extractLsb' 0 32)).setCc (signCc false v.toInt)
    let pair (v : Double) : State := pairOf s v
    let loads (i : Instr) (w : Word) : Prop :=
      s.OnValue i w into pair ∧ s.OnReadFault i w (fun lo => s.setReg (r ||| 1) lo)
    let masked (i : Instr) (w : Word) : Prop :=
      s.OnValue i w (fun v => into (v &&& s.reg 4)) (fun v => pair (v &&& (s.reg 4 ++ s.reg 4))) ∧
      s.OnReadFault i w (fun lo => s.setReg (r ||| 1) (lo &&& s.reg 4))
    let negative (i : Instr) (w : Word) : Prop :=
      s.OnValue i w
        (fun v => (into (BitVec.ofInt 32 (-v.toInt))).afterArith (outOfRange 32 (-v.toInt))
          (signCc (outOfRange 32 (-v.toInt)) (BitVec.ofInt 32 (-v.toInt)).toInt))
        (fun v => (pair (BitVec.ofInt 64 (-v.toInt))).afterArith (outOfRange 64 (-v.toInt))
          (signCc (outOfRange 64 (-v.toInt)) (BitVec.ofInt 64 (-v.toInt)).toInt)) ∧
      s.OnReadFault i w (fun _ => s)
    (∀ m : MemRef 17, m.ind = false → s.memLock = false → ∀ l1 l2 rest, s.bus = l1 :: l2 :: rest →
      let first : State := State.busWrites { s with bus := l2 :: rest } l1
      let second : State := State.busWrites { first with bus := rest } l2
      ∀ e a hi lo, s.effective m.ofDouble.word = .ok e s → e.operand = .double a → first.ReadsWord (a + 4) lo →
        second.ReadsWord a hi → ∃ b, exec (.ld r m) s = .next ((pairOf second (hi ++ lo)).withStop b)) ∧
    (∀ m, loads (.lb r m) m.ofByte.word) ∧ (∀ m, loads (.lh r m) m.ofHalf.word) ∧
    (∀ m, loads (.lw r m) m.ofWord.word) ∧ (∀ m, loads (.ld r m) m.ofDouble.word) ∧
    (∀ m, masked (.lmb r m) m.ofByte.word) ∧ (∀ m, masked (.lmh r m) m.ofHalf.word) ∧
    (∀ m, masked (.lmw r m) m.ofWord.word) ∧ (∀ m, masked (.lmd r m) m.ofDouble.word) ∧
    (∀ m, negative (.lnb r m) m.ofByte.word) ∧ (∀ m, negative (.lnh r m) m.ofHalf.word) ∧
    (∀ m, negative (.lnw r m) m.ofWord.word) ∧ (∀ m, negative (.lnd r m) m.ofDouble.word)

/-- LI, LEA, LA and LEAR complete: the sign-extended immediate with its condition code, and the effective address in
the layout of the mode, the condition code unchanged (R213 to R216). What LEA leaves in bits 0 to 7 is the spec's
decision D24, the arithmetic of the effective address its decision D20, which the model follows (log 28). -/
def Obligations.ImmediateAndAddressLoadsComplete : Prop :=
  ∀ (s : State) (r : Reg) (m : MemRef 20),
    (∀ v : Half, exec (.li r v) s = .next ((s.setReg r (BitVec.ofInt 32 v.toInt)).setCc (signCc false v.toInt))) ∧
    (∀ e s1, s.Alone → s.effective (leaWord r m) = .ok e s1 →
      (s.ext = true → Completes (.lea r m) s (s.setReg r ((e.word &&& 0xC0000000) ||| BitVec.ofNat 32 e.ea.toNat))) ∧
      (s.ext = false → s.mode = .psd → Completes (.lea r m) s
        (s.setReg r ((e.sum &&& 0xC0000000) ||| BitVec.ofNat 32 (e.ef.toNat * 0x80000 + e.ea.toNat)))) ∧
      (s.ext = false → s.mode = .psw → Completes (.lea r m) s (s.setReg r e.sum))) ∧
    (∀ e s1, s.Alone → s.effective m.word = .ok e s1 → s.mode = .psd →
      (s.ext = true → Completes (.la r m) s (s.setReg r (BitVec.ofNat 32 e.ea.toNat))) ∧
      (s.ext = false → Completes (.la r m) s (s.setReg r (BitVec.ofNat 32 (e.ef.toNat * 0x80000 + e.ea.toNat)))) ∧
      (s.priv = true → ∀ pa, s.translate e.ea = some pa →
        Completes (.lear r m) s (s.setReg r (BitVec.ofNat 32 (e.ef.toNat * 2 ^ 24 + pa.toNat)))))

/-- LF loads, and STF stores, the registers from R to 7 at consecutive words inside their eight-word block, and
nothing else changes (R217, R226). Wrapping inside the block where the register restriction is broken is the spec's
decision D25, which the model follows (log 28). -/
def Obligations.RegisterFilesComplete : Prop :=
  ∀ (s : State) (r : Reg) (m : MemRef 20) (e : Effective) (s1 : State), s.Alone → s.effective m.word = .ok e s1 →
    (∀ v : Nat → Word, (∀ k, k < 8 - r.toNat → s.ReadsWord (fileAddress e.ea k) (v k)) →
      Completes (.lf r m) s { s with
        regs := Vector.ofFn fun j => if j.val < r.toNat then s.regs[j] else v (j.val - r.toNat) }) ∧
    (∀ p : Nat → Addr, (∀ k, k < 8 - r.toNat → s.locate .write (fileAddress e.ea k) 4 = .ok (p k)) →
      Completes (.stf r m) s
        ((List.range (8 - r.toNat)).foldl (fun t k => t.poke32 (p k) (s.reg (BitVec.ofNat 3 (r.toNat + k)))) s))

/-- The stores, the masked stores and the zero-memory instructions complete: the low byte or halfword, the word, or
the pair with its low-order word first is stored, and nothing else changes (R218 to R225, R227 to R230). Where the
operand cannot be written (a Map Fault, a protected page, absent memory), the trap is raised with nothing stored,
or, where only the second word of a doubleword fails, its low-order word alone (20_memory.md R105, R114; the order
of checks is the spec's decision D21). An odd register number in STD and STMD names the pair it lies in, the spec's
decision D1, and the low-order word first in every doubleword store its decision D24, which the model follows (log
28). -/
def Obligations.StoresComplete : Prop :=
  ∀ (s : State) (r : Reg),
    let stores (i : Instr) (w v hi lo : Word) : Prop :=
      s.OnWrite w (fun pa => Completes i s (s.poke8 pa (BitVec.ofNat 8 v.toNat)))
        (fun pa => Completes i s (s.poke16 pa (BitVec.ofNat 16 v.toNat))) (fun pa => Completes i s (s.poke32 pa v))
        (fun ph pl => Completes i s ((s.poke32 pl lo).poke32 ph hi)) ∧
      s.OnWriteFault i w lo
    let plain (i : Instr) (w : Word) : Prop := stores i w (s.reg r) (s.reg (r &&& 6)) (s.reg (r ||| 1))
    let masked (i : Instr) (w : Word) : Prop :=
      stores i w (s.reg r &&& s.reg 4) (s.reg (r &&& 6) &&& s.reg 4) (s.reg (r ||| 1) &&& s.reg 4)
    let zero (i : Instr) (w : Word) : Prop := stores i w 0 0 0
    (∀ m, plain (.stb r m) m.ofByte.word) ∧ (∀ m, plain (.sth r m) m.ofHalf.word) ∧
    (∀ m, plain (.stw r m) m.ofWord.word) ∧ (∀ m, plain (.std r m) m.ofDouble.word) ∧
    (∀ m, masked (.stmb r m) m.ofByte.word) ∧ (∀ m, masked (.stmh r m) m.ofHalf.word) ∧
    (∀ m, masked (.stmw r m) m.ofWord.word) ∧ (∀ m, masked (.stmd r m) m.ofDouble.word) ∧
    (∀ m, zero (.zmb m) m.ofByte.word) ∧ (∀ m, zero (.zmh m) m.ofHalf.word) ∧
    (∀ m, zero (.zmw m) m.ofWord.word) ∧ (∀ m, zero (.zmd m) m.ofDouble.word)

/-! ## Register Transfer, Memory Management, WCS (41 to 43) -/

/-- The transfers between general registers complete, all sources read before any is written; the condition code is
that of the destination, of the original destination for an exchange; and their halfwords decode to them (R253,
R254, R257 to R262; ZR is R231, log 24). -/
def Obligations.RegisterTransfersComplete : Prop :=
  ∀ (s : State) (sr d : Reg),
    let into (v : Word) : State := (s.setReg d v).setCc (signCc false v.toInt)
    let negated (mask : Word) : State :=
      let v : Word := BitVec.ofInt 32 (-(s.reg sr).toInt) &&& mask
      (s.setReg d v).afterArith (decide (s.reg sr = 0x80000000)) (signCc (decide (s.reg sr = 0x80000000)) v.toInt)
    let exchanged (a b : Word) : State := ((s.setReg d a).setReg sr b).setCc (signCc false b.toInt)
    let codes (bits : Half) (f : Reg → Reg → Instr) : Prop :=
      ∀ h : Half, h &&& 0xFC0F = bits → decode (.half h) = some (f (h.extractLsb' 4 3) (h.extractLsb' 7 3))
    (codes 0x2C00 .trr ∧ codes 0x2C08 .trrm ∧ codes 0x2C04 .trn ∧ codes 0x2C0C .trnm ∧ codes 0x2C03 .trc ∧
      codes 0x2C0B .trcm ∧ codes 0x2C05 .xcr ∧ codes 0x2C0D .xcrm) ∧
    exec (.zr d) s = .next (into 0) ∧
    exec (.trr sr d) s = .next (into (s.reg sr)) ∧
    exec (.trrm sr d) s = .next (into (s.reg sr &&& s.reg 4)) ∧
    exec (.trn sr d) s = .next (negated 0xFFFFFFFF) ∧
    exec (.trnm sr d) s = .next (negated (s.reg 4)) ∧
    exec (.trc sr d) s = .next (into (s.reg sr ^^^ 0xFFFFFFFF)) ∧
    exec (.trcm sr d) s = .next (into ((s.reg sr ^^^ 0xFFFFFFFF) &&& s.reg 4)) ∧
    exec (.xcr sr d) s = .next (exchanged (s.reg sr) (s.reg d)) ∧
    exec (.xcrm sr d) s = .next (exchanged (s.reg sr &&& s.reg 4) (s.reg d &&& s.reg 4))

/-- The transfers with special registers complete: scratchpad, protect registers, PSW, control switches (R251, R252,
R255, R256, R263; 51_control.md R503). That TRP is privileged and TPR is not and clears bits 0-15 is the spec's
decision D9, that no scratchpad cell but two means anything to the processor its decision D7, which the model
follows (log 28); that TSCR of X'91' reads what the cell holds is log 18. -/
def Obligations.SpecialTransfersComplete : Prop :=
  ∀ (s : State) (sr d : Reg) (p : BitVec 4),
    (s.priv = true → ∀ (k : Nat) (h : k < 256), (s.reg sr).toNat / 0x10000 % 256 = k →
      exec (.tscr sr d) s = .next (s.setReg d s.spad[k])) ∧
    (s.priv = true → ∀ (k : Nat) (h : k < 256), (s.reg d).toNat / 0x10000 % 256 = k →
      exec (.trsc sr d) s = .next { s with spad := s.spad.set k (s.reg sr) }) ∧
    (s.priv = true → exec (.trp p d) s = .next { s with prot := s.prot.set p.toNat (BitVec.ofNat 16 (s.reg d).toNat) p.isLt }) ∧
    exec (.tpr p d) s = .next (s.setReg d (BitVec.ofNat 32 (s.prot[p.toNat]'p.isLt).toNat)) ∧
    exec (.trsw sr) s = .next { s with
      cc := BitVec.ofNat 4 ((s.reg sr).toNat / 2 ^ 27), pc := BitVec.ofNat 18 ((s.reg sr).toNat / 2) } ∧
    exec (.lcs d) s = .next ((s.setReg d (BitVec.ofNat 32 (s.csw.toNat * 0x10000))).setCc
      (signCc false (BitVec.ofNat 32 (s.csw.toNat * 0x10000)).toInt))

/-- LMAP and TMAPR complete in PSD mode, privileged and unmapped. TMAPR delivers the pair bits 27-30 of Rs name.
LMAP loads the map registers with the page entries of the process's segments one after another, the base process's
first segment before them where the borrowed bit is set, and clears the others; more than 32 entries are a Map Fault
with the first 32 loaded. While mapped, both are a System Check (R272, R273; 20_memory.md R102). The descriptors'
fields and the Map Fault of the overflow are the spec's decision D22, the bits LMAP ignores and the System Check its
decision D10, which the model follows (log 28). That the first 32 entries stay loaded where the overflow ends the
walk is the model's choice (log 42). -/
def Obligations.MapInstructionsComplete : Prop :=
  ∀ (s : State) (sr d : Reg), s.mode = .psd → s.priv = true →
    (s.mapped = false →
      (∀ (k : Nat) (h : 2 * k + 1 < 32), (s.reg sr).toNat / 2 % 16 = k →
        exec (.tmapr sr d) s = .next (s.setReg d (s.map[2 * k] ++ s.map[2 * k + 1]))) ∧
      (∀ (p2 : Word) (pages : List Half), s.Alone → s.realRead ((s.reg d).extractLsb' 0 24 + 4) = .ok p2 → s.ProcessPages p2 pages →
        (pages.length ≤ 32 → Completes (.lmap d) s { s with map := mapOf pages }) ∧
        (32 < pages.length →
          ∃ b, exec (.lmap d) s = raise (.mapFault true) (State.withStop { s with map := mapOf pages } b)))) ∧
    (s.mapped = true →
      exec (.tmapr sr d) s = raise (.systemCheck true) s ∧ exec (.lmap d) s = raise (.systemCheck true) s)

/-- WWCS and RWCS complete, privileged and with an installed WCS address; JWCS completes with what the routine
leaves, which may depend on the whole state and is a free value (log 11). Without WCS, and outside it, they raise
Undefined Instruction, on a CPU with status bit 22 (43_wcs.md R281 to R283). That an address between the installed
words and 4095 is outside is the spec's decision D11 (log 28); the wrap of the second word is log 23, the bit on an
IPU log 36. -/
def Obligations.WcsInstructionsComplete : Prop :=
  ∀ (s : State) (sr d : Reg),
    let error : Vector Word 256 := if s.cfg.role = .cpu then s.spad.set 0x91 (s.status ||| 0x200) else s.spad
    (s.Alone → s.priv = true → (s.reg d).toNat < s.cfg.wcsBoards.words →
      ∀ hi lo, s.ReadsWord (s.wcsOperand (s.reg sr)) hi → s.ReadsWord (s.wcsOperandNext (s.reg sr)) lo →
        Completes (.wwcs sr d) s { s with wcs := Wcs.write s.wcs (s.reg d).toNat (hi ++ lo), cc := 0 }) ∧
    (s.Alone → s.priv = true → (s.reg sr).toNat < s.cfg.wcsBoards.words →
      ∀ ph pl, s.locate .write (s.wcsOperand (s.reg d)) 4 = .ok ph → s.locate .write (s.wcsOperandNext (s.reg d)) 4 = .ok pl →
        let v := Wcs.read s.wcs (s.reg sr).toNat
        Completes (.rwcs sr d) s
          { (s.poke32 ph (v.extractLsb' 32 32)).poke32 pl (v.extractLsb' 0 32) with cc := 0 }) ∧
    (s.MemoryInv → ∀ (a b : Nat) (v : Double), Wcs.read (Wcs.write s.wcs a v) b = if b = a then v else Wcs.read s.wcs b) ∧
    (∀ (m : MemRef 20) (e : Effective) (s1 : State), s.Alone → s.cfg.wcsBoards ≠ .none → s.effective m.word = .ok e s1 →
      let left := Config.wcsRoutine (BitVec.ofNat 6 e.ea.toNat) s1
      ∃ t, exec (.jwcs m) s = .next t ∧ t.regs = left.regs ∧ t.cc = left.cc ∧
        t.mem = left.writes.foldl (fun l p => Memory.write l p.1.toNat p.2) s.mem ∧
        t.pc = s.pc ∧ t.wcs = s.wcs ∧ t.priv = s.priv ∧ t.spad = s.spad) ∧
    (∀ m : MemRef 20, s.cfg.wcsBoards = .none → exec (.jwcs m) s = raise .undefined { s with spad := error }) ∧
    (s.priv = true → s.cfg.wcsBoards.words ≤ (s.reg d).toNat →
      exec (.wwcs sr d) s = raise .undefined { s with cc := 8, spad := error }) ∧
    (s.priv = true → s.cfg.wcsBoards.words ≤ (s.reg sr).toNat →
      exec (.rwcs sr d) s = raise .undefined { s with cc := 8, spad := error })

/-- SEA and CEA set and clear bit 5 of the program status in either mode; EAE and DAE set and clear bit 7 in PSD
mode, privileged; nothing else changes, the condition code included, and their halfwords are X'000D', X'000F',
X'0008', X'000E' (42_memory_management.md R270, R271; 51_control.md R526, R527). That CEA leaves the condition code
is the spec's own inference, by symmetry with SEA, since CEA's condition code lines are lost (R271;
91_not_in_source.md N26). -/
def Obligations.StatusBitInstructionsComplete : Prop :=
  ∀ s : State,
    decode (.half 0x000D) = some .sea ∧ exec .sea s = .next { s with ext := true } ∧
    decode (.half 0x000F) = some .cea ∧ exec .cea s = .next { s with ext := false } ∧
    decode (.half 0x0008) = some .eae ∧ (s.mode = .psw → exec .eae s = raise .undefined s) ∧
    (s.mode = .psd → exec .eae s = if s.priv then .next { s with aexp := true } else raise .privilege s) ∧
    decode (.half 0x000E) = some .dae ∧ (s.mode = .psw → exec .dae s = raise .undefined s) ∧
    (s.mode = .psd → exec .dae s = if s.priv then .next { s with aexp := false } else raise .privilege s)

/-! ## Branch (44_branch.md) -/

/-- The branches complete: taken, the program counter is bits 13-30 of the effective address, and an indirect branch
loads the condition code from bits 1-4 of the last word of the chain; not taken, nothing else changes. BL leaves PSD
word 1 with bit 6 zero in R0. BIB, BIH, BIW and BID increment the register by 1, 2, 4 or 8, and branch unless the
sum is zero (R290 to R300). BCT's condition table is not in the source: the spec restores it and the model presumes
it (log 31, G3). That a branch not taken fetches no chain, and that BIx writes its register before the chain is
followed, is the spec's decision D26, which the model follows (log 28). The zero display bits of BL's link word are
its decision D4. -/
def Obligations.BranchesComplete : Prop :=
  ∀ (s : State) (m : MemRef 20),
    let goes (t : State) (e : Effective) : State := { t with
      pc := BitVec.ofNat 18 (e.ea.toNat / 2), cc := if m.ind then BitVec.ofNat 4 (e.word.toNat / 2 ^ 27) else s.cc }
    let holds (c : BitVec 3) : Bool :=
      if c.toNat = 0 then true
      else if c.toNat < 5 then s.cc.getLsbD (4 - c.toNat)
      else if c = 5 then s.cc.getLsbD 2 || s.cc.getLsbD 0
      else if c = 6 then s.cc.getLsbD 1 || s.cc.getLsbD 0
      else decide (s.cc ≠ 0)
    let taken (i : Instr) : Prop := ∀ e s1, s.Alone → s.effective m.word = .ok e s1 → Completes i s (goes s e)
    taken (.bu m) ∧
    (∀ c, holds c = true → taken (.bct c m)) ∧ (∀ c, holds c = false → exec (.bct c m) s = .next s) ∧
    (∀ c, holds c = false → taken (.bcf c m)) ∧ (∀ c, holds c = true → exec (.bcf c m) s = .next s) ∧
    (s.reg 4 &&& BitVec.ofNat 32 (2 ^ (15 - s.cc.toNat)) ≠ 0 → taken (.bft m)) ∧
    (s.reg 4 &&& BitVec.ofNat 32 (2 ^ (15 - s.cc.toNat)) = 0 → exec (.bft m) s = .next s) ∧
    (∀ e s1, s.Alone → s.effective m.word = .ok e s1 →
      Completes (.bl m) s (goes (s.setReg 0 (BitVec.ofNat 32 { s with hist := false }.psd1Number)) e)) ∧
  (∀ (r : Reg) (ind : Bool) (a : BitVec 20),
      let after (n : Nat) : State := { s.setReg r (BitVec.ofNat 32 ((s.reg r).toNat + n)) with noHalt := true }
      let branches (i : Instr) (n : Nat) : Prop :=
        (((s.reg r).toNat + n) % 2 ^ 32 = 0 → exec i s = .next (after n)) ∧
        (((s.reg r).toNat + n) % 2 ^ 32 ≠ 0 → ∀ e s1, s.Alone → (after n).effective (MemRef.word ⟨0, ind, a⟩) = .ok e s1 →
          Completes i s { after n with
            pc := BitVec.ofNat 18 (e.ea.toNat / 2), cc := if ind then BitVec.ofNat 4 (e.word.toNat / 2 ^ 27) else s.cc })
      branches (.bib r ind a) 1 ∧ branches (.bih r ind a) 2 ∧ branches (.biw r ind a) 4 ∧ branches (.bid r ind a) 8)

/-! ## Compare, Logical (45, 46) -/

/-- The compares complete and change the condition code alone: the sign of register minus operand, or for a masked
compare whether the exclusive OR under R4 is zero (R320 to R331). An odd register number in CAMD and CMMD names the
pair it lies in, the spec's decision D1, which the model follows (log 28). -/
def Obligations.ComparesComplete : Prop :=
  ∀ (s : State) (r : Reg),
    let pair : Double := s.reg (r &&& 6) ++ s.reg (r ||| 1)
    let against (v : Word) : State := s.setCc (signCc false ((s.reg r).toInt - v.toInt))
    let under (v : Word) : State := s.setCc (if (s.reg r ^^^ v) &&& s.reg 4 = 0 then 1 else 0)
    let arith (i : Instr) (w : Word) : Prop :=
      s.OnValue i w against (fun v => s.setCc (signCc false (pair.toInt - v.toInt)))
    let masked (i : Instr) (w : Word) : Prop :=
      s.OnValue i w under (fun v => s.setCc (if (pair ^^^ v) &&& (s.reg 4 ++ s.reg 4) = 0 then 1 else 0))
    (∀ m, arith (.camb r m) m.ofByte.word) ∧ (∀ m, arith (.camh r m) m.ofHalf.word) ∧
    (∀ m, arith (.camw r m) m.ofWord.word) ∧ (∀ m, arith (.camd r m) m.ofDouble.word) ∧
    (∀ sr, exec (.car sr r) s = .next (against (s.reg sr))) ∧
    (∀ v : Half, exec (.ci r v) s = .next (against (BitVec.ofInt 32 v.toInt))) ∧
    (∀ m, masked (.cmmb r m) m.ofByte.word) ∧ (∀ m, masked (.cmmh r m) m.ofHalf.word) ∧
    (∀ m, masked (.cmmw r m) m.ofWord.word) ∧ (∀ m, masked (.cmmd r m) m.ofDouble.word) ∧
    (∀ sr, exec (.cmr sr r) s = .next (under (s.reg sr)))

/-- The logical instructions complete: a byte or halfword acts on the low bits of the register alone; the condition
code is the sign of the register, but for the AND of a byte or halfword, which tests that field alone (R340 to
R357). An odd register number in ANMD, ORMD and EOMD names the pair it lies in, the spec's decision D1, which the
model follows (log 28). -/
def Obligations.LogicalsComplete : Prop :=
  ∀ (s : State) (r : Reg),
    let pair : Double := s.reg (r &&& 6) ++ s.reg (r ||| 1)
    let into (v : Word) : State := (s.setReg r v).setCc (signCc false v.toInt)
    let intoPair (v : Double) : State :=
      ((s.setReg (r &&& 6) (v.extractLsb' 32 32)).setReg (r ||| 1) (v.extractLsb' 0 32)).setCc (signCc false v.toInt)
    let ands (i : Instr) (w : Word) : Prop :=
      s.OnRead w
        (fun v => Completes i s ((s.setReg r (s.reg r &&& (0xFFFFFF00 ||| BitVec.ofNat 32 v.toNat))).setCc
          (signCc false (s.reg r &&& BitVec.ofNat 32 v.toNat).toNat)))
        (fun v => Completes i s ((s.setReg r (s.reg r &&& (0xFFFF0000 ||| BitVec.ofNat 32 v.toNat))).setCc
          (signCc false (s.reg r &&& BitVec.ofNat 32 v.toNat).toNat)))
        (fun v => Completes i s (into (s.reg r &&& v))) (fun hi lo => Completes i s (intoPair (pair &&& (hi ++ lo))))
    let ors (i : Instr) (w : Word) : Prop :=
      s.OnRead w (fun v => Completes i s (into (s.reg r ||| BitVec.ofNat 32 v.toNat)))
        (fun v => Completes i s (into (s.reg r ||| BitVec.ofNat 32 v.toNat)))
        (fun v => Completes i s (into (s.reg r ||| v))) (fun hi lo => Completes i s (intoPair (pair ||| (hi ++ lo))))
    let eors (i : Instr) (w : Word) : Prop :=
      s.OnRead w (fun v => Completes i s (into (s.reg r ^^^ BitVec.ofNat 32 v.toNat)))
        (fun v => Completes i s (into (s.reg r ^^^ BitVec.ofNat 32 v.toNat)))
        (fun v => Completes i s (into (s.reg r ^^^ v))) (fun hi lo => Completes i s (intoPair (pair ^^^ (hi ++ lo))))
    (∀ m, ands (.anmb r m) m.ofByte.word ∧ ors (.ormb r m) m.ofByte.word ∧ eors (.eomb r m) m.ofByte.word) ∧
    (∀ m, ands (.anmh r m) m.ofHalf.word ∧ ors (.ormh r m) m.ofHalf.word ∧ eors (.eomh r m) m.ofHalf.word) ∧
    (∀ m, ands (.anmw r m) m.ofWord.word ∧ ors (.ormw r m) m.ofWord.word ∧ eors (.eomw r m) m.ofWord.word) ∧
    (∀ m, ands (.anmd r m) m.ofDouble.word ∧ ors (.ormd r m) m.ofDouble.word ∧ eors (.eomd r m) m.ofDouble.word) ∧
    (∀ sr, exec (.anr sr r) s = .next (into (s.reg sr &&& s.reg r)) ∧ exec (.orr sr r) s = .next (into (s.reg sr ||| s.reg r)) ∧
      exec (.orrm sr r) s = .next (into ((s.reg sr ||| s.reg r) &&& s.reg 4)) ∧
      exec (.eor sr r) s = .next (into (s.reg sr ^^^ s.reg r)) ∧
      exec (.eorm sr r) s = .next (into ((s.reg sr ^^^ s.reg r) &&& s.reg 4)))

/-! ## Shift, Bit Manipulation (47, 48) -/

/-- The shifts complete. The logical, circular and right shifts change no flag (of SLL and SRLD the spec's own
inference); the left arithmetic shifts keep the sign, and set CC1 when the shifted value does not fit, which is an
arithmetic exception; and their halfwords decode to them, bit 10 ignored (R370, R374 to R383). An odd register
number for a pair is the spec's decision D1 and the ignored bit 10 its decision D27, which the model follows (log
28). -/
def Obligations.ShiftsComplete : Prop :=
  ∀ (s : State) (r : Reg) (n : BitVec 5),
    let v : Word := s.reg r
    let w : Double := s.reg (r &&& 6) ++ s.reg (r ||| 1)
    let k : Nat := 2 ^ n.toNat
    let toPair (x : Double) : State := (s.setReg (r &&& 6) (x.extractLsb' 32 32)).setReg (r ||| 1) (x.extractLsb' 0 32)
    let flags (t : State) (ae : Bool) : State := t.afterArith ae (if ae then 8 else 0)
    let codes (bits : Half) (f : Reg → BitVec 5 → Instr) : Prop :=
      ∀ h : Half, h &&& 0xFC40 = bits → decode (.half h) = some (f (h.extractLsb' 7 3) (h.extractLsb' 0 5))
    (codes 0x6C40 .sla ∧ codes 0x7040 .sll ∧ codes 0x7440 .slc ∧ codes 0x7840 .slad ∧ codes 0x7C40 .slld ∧
      codes 0x6C00 .sra ∧ codes 0x7000 .srl ∧ codes 0x7400 .src ∧ codes 0x7800 .srad ∧ codes 0x7C00 .srld) ∧
    exec (.sll r n) s = .next (s.setReg r (BitVec.ofNat 32 (v.toNat * k))) ∧
    exec (.srl r n) s = .next (s.setReg r (BitVec.ofNat 32 (v.toNat / k))) ∧
    exec (.sra r n) s = .next (s.setReg r (BitVec.ofInt 32 (v.toInt / k))) ∧
    exec (.slc r n) s = .next (s.setReg r (BitVec.ofNat 32 (v.toNat * k % 2 ^ 32 + v.toNat * k / 2 ^ 32))) ∧
    exec (.src r n) s = .next (s.setReg r (BitVec.ofNat 32 (v.toNat / k + v.toNat % k * (2 ^ 32 / k)))) ∧
    exec (.slld r n) s = .next (toPair (BitVec.ofNat 64 (w.toNat * k))) ∧
    exec (.srld r n) s = .next (toPair (BitVec.ofNat 64 (w.toNat / k))) ∧
    exec (.srad r n) s = .next (toPair (BitVec.ofInt 64 (w.toInt / k))) ∧
    exec (.sla r n) s = .next (flags
      (s.setReg r (BitVec.ofNat 32 (v.toNat / 2 ^ 31 * 2 ^ 31 + v.toNat * k % 2 ^ 31))) (outOfRange 32 (v.toInt * k))) ∧
    exec (.slad r n) s = .next (flags
      (toPair (BitVec.ofNat 64 (w.toNat / 2 ^ 63 * 2 ^ 63 + w.toNat * k % 2 ^ 63))) (outOfRange 64 (w.toInt * k)))

/-- NOR, NORD and SCZ complete: a number that is not zero is multiplied by a power of 16 until its five leading bits
differ, and the exponent is X'40' less that power; SCZ counts the leading zeros and shifts the leading one out; and
their halfwords decode to them (R371 to R373). When the shifting stops, and the order of the two writes when source
and destination are one register, are the spec's decision D27, which the model follows (log 28). An odd source
register in NORD names the pair it lies in, its decision D1. -/
def Obligations.NormalizesComplete : Prop :=
  ∀ (s : State) (sr d : Reg),
    let v : Word := s.reg sr
    let w : Double := s.reg (sr &&& 6) ++ s.reg (sr ||| 1)
    let setPair (x : Double) : State := (s.setReg (sr &&& 6) (x.extractLsb' 32 32)).setReg (sr ||| 1) (x.extractLsb' 0 32)
    let codes (bits : Half) (f : Reg → Reg → Instr) : Prop :=
      ∀ h : Half, h &&& 0xFC0F = bits → decode (.half h) = some (f (h.extractLsb' 7 3) (h.extractLsb' 4 3))
    (codes 0x6000 .nor ∧ codes 0x6400 .nord ∧ codes 0x6800 .scz) ∧
    (v = 0 → exec (.nor sr d) s = .next ((s.setReg sr 0).setReg d 0)) ∧
    (v ≠ 0 → ∃ k x, k ≤ 7 ∧ (x : Word).toInt = v.toInt * 16 ^ k ∧ x.toNat / 2 ^ 27 ≠ 0 ∧ x.toNat / 2 ^ 27 ≠ 31 ∧
      (k ≠ 0 → v.toNat * 16 ^ (k - 1) % 2 ^ 32 / 2 ^ 27 = 0 ∨ v.toNat * 16 ^ (k - 1) % 2 ^ 32 / 2 ^ 27 = 31) ∧
      exec (.nor sr d) s = .next ((s.setReg sr x).setReg d (BitVec.ofNat 32 (0x40 - k)))) ∧
    (w = 0 → exec (.nord sr d) s = .next ((setPair 0).setReg d 0)) ∧
    (w ≠ 0 → ∃ k x, k ≤ 15 ∧ (x : Double).toInt = w.toInt * 16 ^ k ∧ x.toNat / 2 ^ 59 ≠ 0 ∧ x.toNat / 2 ^ 59 ≠ 31 ∧
      (k ≠ 0 → w.toNat * 16 ^ (k - 1) % 2 ^ 64 / 2 ^ 59 = 0 ∨ w.toNat * 16 ^ (k - 1) % 2 ^ 64 / 2 ^ 59 = 31) ∧
      exec (.nord sr d) s = .next ((setPair x).setReg d (BitVec.ofNat 32 (0x40 - k)))) ∧
    (v = 0 → exec (.scz sr d) s = .next (((s.setReg sr 0).setReg d 0).setCc 1)) ∧
    (v ≠ 0 → ∃ c, c ≤ 31 ∧ 2 ^ (31 - c) ≤ v.toNat ∧ v.toNat < 2 ^ (32 - c) ∧
      exec (.scz sr d) s =
        .next (((s.setReg sr (BitVec.ofNat 32 (v.toNat * 2 ^ (c + 1)))).setReg d (BitVec.ofNat 32 c)).setCc 0))

/-- The bit instructions complete: the tested bit enters CC1 and CC1 to CC3 move to CC2 to CC4; adding a bit is an
addition to the whole word with its flags. In memory the operand is the byte at the effective address, the word
around it for the addition, read and written as one: what bus agents write falls before the read or after the write
(20_memory.md R120; 53_input_output.md R572; log 1). Where the operand cannot be read or written, the trap is raised
with nothing stored. Without the F bit the encoding is undefined (R400 to R410). The undefined encoding without the
F bit, and the overflow of ABM and ABR as that of a word addition, are the spec's decision D28, which the model
follows (log 28). -/
def Obligations.BitInstructionsComplete : Prop :=
  ∀ (s : State) (c : BitVec 3),
    let shifted (bit : Bool) : BitVec 4 := BitVec.ofNat 4 (bit.toNat * 8 + s.cc.toNat / 2)
    let sum (t : State) (a b : Word) : State :=
      t.afterArith (outOfRange 32 (a.toInt + b.toInt)) (signCc (outOfRange 32 (a.toInt + b.toInt)) (a + b).toInt)
    (∀ (r : Reg) (b : BitVec 2),
      let one : Word := BitVec.ofNat 32 (2 ^ (31 - (8 * b.toNat + c.toNat)))
      let bit : Bool := decide (s.reg r &&& one ≠ 0)
      exec (.sbr c r b) s = .next ((s.setReg r (s.reg r ||| one)).setCc (shifted bit)) ∧
      exec (.zbr c r b) s = .next ((s.setReg r (s.reg r &&& ~~~one)).setCc (shifted bit)) ∧
      exec (.tbr c r b) s = .next (s.setCc (shifted bit)) ∧
      exec (.abr c r b) s = .next (sum (s.setReg r (s.reg r + one)) (s.reg r) one)) ∧
    (∀ (m : MemRef 20) (e : Effective) (s1 : State), s.Alone → s.effective m.word = .ok e s1 →
      (e.ef = true → ∀ pa : Addr,
        let v := Memory.read s.mem pa.toNat
        let one : Byte := BitVec.ofNat 8 (2 ^ (7 - c.toNat))
        let after (t : State) : State := { t with cc := shifted (decide (v &&& one ≠ 0)) }
        (s.locate .read e.ea 1 = .ok pa → Completes (.tbm c m) s (after s)) ∧
        (s.Modifies e.ea 1 pa → Completes (.sbm c m) s { after (s.poke8 pa (v ||| one)) with memLock := false }) ∧
        (s.Modifies e.ea 1 pa → Completes (.zbm c m) s { after (s.poke8 pa (v &&& ~~~one)) with memLock := false })) ∧
      (e.ef = true → ∀ pa : Addr, s.Modifies (BitVec.ofNat 24 (e.ea.toNat / 4 * 4)) 4 pa →
        let v := Memory.read32 s.mem pa
        let one : Word := BitVec.ofNat 32 (2 ^ (31 - (8 * (e.ea.toNat % 4) + c.toNat)))
        Completes (.abm c m) s { sum (s.poke32 pa (v + one)) v one with memLock := false }) ∧
      (e.ef = true → ∀ t : Trap,
        let raises (i : Instr) (u : State) : Prop := ∃ b, exec i s = raise t (u.withStop b)
        (s.locate .read e.ea 1 = .error t → raises (.tbm c m) s) ∧
        (s.ModifyFault e.ea 1 t → raises (.sbm c m) { s with memLock := false } ∧ raises (.zbm c m) { s with memLock := false }) ∧
        (s.ModifyFault (BitVec.ofNat 24 (e.ea.toNat / 4 * 4)) 4 t → raises (.abm c m) { s with memLock := false })) ∧
      (e.ef = false → ∀ i, i = .sbm c m ∨ i = .zbm c m ∨ i = .abm c m ∨ i = .tbm c m → exec i s = raise .undefined s1)) ∧
    (∀ (m : MemRef 20) (l : List (Addr × Byte)) (rest : List (List (Addr × Byte))), m.ind = false → s.memLock = false →
      s.bus = l :: rest →
      let found : State := State.busWrites { s with bus := rest } l
      ∀ e pa, s.effective m.word = .ok e s → e.ef = true → found.Modifies e.ea 1 pa →
        let v := Memory.read found.mem pa.toNat
        let one : Byte := BitVec.ofNat 8 (2 ^ (7 - c.toNat))
        ∃ b, exec (.sbm c m) s = .next (State.withStop
          { found.poke8 pa (v ||| one) with memLock := false, cc := shifted (decide (v &&& one ≠ 0)) } b))

/-! ## Fixed-Point Arithmetic (49_fixed_point.md) -/

/-- The additions and subtractions from memory complete: the sum or difference of register and operand, CC1 and an
arithmetic exception when it does not fit (R422 to R425, R433 to R436). An odd register number in ADMD and SUMD
names the pair it lies in, the spec's decision D1, which the model follows (log 28). -/
def Obligations.AddAndSubtractFromMemoryComplete : Prop :=
  ∀ (s : State) (r : Reg) (m : MemRef 19) (h : MemRef 18) (d : MemRef 17),
    let sum (v : Int) : State :=
      (s.setReg r (BitVec.ofInt 32 v)).afterArith (outOfRange 32 v) (signCc (outOfRange 32 v) (BitVec.ofInt 32 v).toInt)
    let pair : Double := s.reg (r &&& 6) ++ s.reg (r ||| 1)
    let sumPair (v : Int) : State :=
      let x : Double := BitVec.ofInt 64 v
      ((s.setReg (r &&& 6) (x.extractLsb' 32 32)).setReg (r ||| 1) (x.extractLsb' 0 32)).afterArith (outOfRange 64 v)
        (signCc (outOfRange 64 v) x.toInt)
    let adds (i : Instr) (w : Word) : Prop :=
      s.OnValue i w (fun v => sum ((s.reg r).toInt + v.toInt)) (fun v => sumPair (pair.toInt + v.toInt))
    let subtracts (i : Instr) (w : Word) : Prop :=
      s.OnValue i w (fun v => sum ((s.reg r).toInt - v.toInt)) (fun v => sumPair (pair.toInt - v.toInt))
    adds (.admb r m) m.ofByte.word ∧ adds (.admh r h) h.ofHalf.word ∧
    adds (.admw r d) d.ofWord.word ∧ adds (.admd r d) d.ofDouble.word ∧
    subtracts (.sumb r m) m.ofByte.word ∧ subtracts (.sumh r h) h.ofHalf.word ∧
    subtracts (.sumw r d) d.ofWord.word ∧ subtracts (.sumd r d) d.ofDouble.word

/-- The additions to memory complete: the sum replaces the operand, the register is unchanged. For a byte or
halfword the condition code tells only whether the sum is zero, CC1 to CC3 being undefined (R428 to R431). Where the
operand cannot be read or written, the trap is raised with nothing stored (20_memory.md R114). The two words of ARMD
are each read and written as one, and what a bus agent writes between them falls between the two (20_memory.md R120;
53_input_output.md R572; log 1, log 26). An odd register number in ARMD names the pair it lies in, the spec's
decision D1, which the model follows (log 28); the free condition code bits are log 8. -/
def Obligations.AddToMemoryComplete : Prop :=
  ∀ (s : State) (r : Reg) (m : MemRef 19) (h : MemRef 18) (d : MemRef 17),
    let pair : Double := s.reg (r &&& 6) ++ s.reg (r ||| 1)
    let raises (i : Instr) (t : Trap) : Prop := ∃ b, exec i s = raise t (State.withStop { s with memLock := false } b)
    let stops (i : Instr) (a : Addr) (n : Nat) : Prop := ∀ t, s.ModifyFault a n t → raises i t
    let refuses (i : Instr) (w : Word) : Prop := ∀ e s1, s.Alone → s.effective w = .ok e s1 →
      match e.operand with
      | .byte a => stops i a 1
      | .half a => stops i a 2
      | .word a => stops i a 4
      | .double a => ∀ t,
        (s.locate .read (a + 4) 4 = .error t → raises i t) ∧
        (∀ pl, s.locate .read (a + 4) 4 = .ok pl → s.locate .read a 4 = .error t → raises i t) ∧
        (∀ pl ph, s.locate .read (a + 4) 4 = .ok pl → s.locate .read a 4 = .ok ph → s.locate .write (a + 4) 4 = .error t →
          raises i t)
    let adds (i : Instr) (w : Word) : Prop := refuses i w ∧ ∀ e s1, s.Alone → s.effective w = .ok e s1 →
      match e.operand with
      | .byte a => ∀ pa, s.Modifies a 1 pa →
        let v := (s.reg r).toNat + (Memory.read s.mem pa.toNat).toNat
        ∃ u : BitVec 3, Completes i s { s.poke8 pa (BitVec.ofNat 8 v) with
          cc := u ++ BitVec.ofBool (decide (v % 2 ^ 32 = 0)), freeIx := s.freeIx + 1, memLock := false }
      | .half a => ∀ pa, s.Modifies a 2 pa →
        let v := (s.reg r).toNat + (Memory.read16 s.mem pa).toNat
        ∃ u : BitVec 3, Completes i s { s.poke16 pa (BitVec.ofNat 16 v) with
          cc := u ++ BitVec.ofBool (decide (v % 2 ^ 16 = 0)), freeIx := s.freeIx + 1, memLock := false }
      | .word a => ∀ pa, s.Modifies a 4 pa →
        let v := (s.reg r).toInt + (Memory.read32 s.mem pa).toInt
        Completes i s { (s.poke32 pa (BitVec.ofInt 32 v)).afterArith (outOfRange 32 v)
          (signCc (outOfRange 32 v) (BitVec.ofInt 32 v).toInt) with memLock := false }
      | .double a => ∀ ph pl, s.Modifies a 4 ph → s.Modifies (a + 4) 4 pl →
        let v := pair.toInt + (Memory.read32 s.mem ph ++ Memory.read32 s.mem pl).toInt
        let x : Double := BitVec.ofInt 64 v
        Completes i s { ((s.poke32 pl (x.extractLsb' 0 32)).poke32 ph (x.extractLsb' 32 32)).afterArith (outOfRange 64 v)
          (signCc (outOfRange 64 v) x.toInt) with memLock := false }
    adds (.armb r m) m.ofByte.word ∧ adds (.armh r h) h.ofHalf.word ∧
    adds (.armw r d) d.ofWord.word ∧ adds (.armd r d) d.ofDouble.word ∧
    (d.ind = false → s.MemoryInv → s.memLock = false → ∀ l1 l2 rest, s.bus = l1 :: l2 :: rest →
      let first : State := State.busWrites { s with bus := l2 :: rest } l1
      let second : State := State.busWrites { first with bus := rest } l2
      ∀ e a pl ph, s.effective d.ofDouble.word = .ok e s → e.operand = .double a → first.Modifies (a + 4) 4 pl →
        second.Modifies a 4 ph →
        let v := pair.toInt + (Memory.read32 second.mem ph ++ Memory.read32 first.mem pl).toInt
        let x : Double := BitVec.ofInt 64 v
        let between : State := State.busWrites { first.poke32 pl (x.extractLsb' 0 32) with bus := rest } l2
        ∃ b, exec (.armd r d) s = .next (State.withStop { (between.poke32 ph (x.extractLsb' 32 32)).afterArith (outOfRange 64 v)
          (signCc (outOfRange 64 v) x.toInt) with memLock := false } b))

/-- Multiplication and division complete: the product fills the pair; the quotient goes to the odd register and the
remainder, with the sign of the dividend, to the even one; a zero divisor or a quotient beyond 32 bits is an
arithmetic exception that leaves the pair. The doubleword combination is undefined (R440 to R451). The exception on
a zero divisor and the condition code by the restored pair are the spec's decision D29, the undefined doubleword its
decisions D28 and D30, which the model follows (log 28). An odd register number in any of them names the pair it
lies in, its decision D1. -/
def Obligations.MultiplyAndDivideComplete : Prop :=
  ∀ (s : State) (r : Reg),
    let pair : Double := s.reg (r &&& 6) ++ s.reg (r ||| 1)
    let product (v : Word) : State :=
      let p : Double := BitVec.ofInt 64 ((s.reg (r ||| 1)).toInt * v.toInt)
      ((s.setReg (r &&& 6) (p.extractLsb' 32 32)).setReg (r ||| 1) (p.extractLsb' 0 32)).setCc
        (signCc false ((s.reg (r ||| 1)).toInt * v.toInt))
    let divided (v : Word) : State :=
      let q := pair.toInt.tdiv v.toInt
      if v = 0 ∨ outOfRange 32 q = true then s.afterArith true (signCc true (s.reg (r ||| 1)).toInt)
      else ((s.setReg (r &&& 6) (BitVec.ofInt 32 (pair.toInt.tmod v.toInt))).setReg (r ||| 1) (BitVec.ofInt 32 q)).setCc
        (signCc false q)
    let reads (i : Instr) (w : Word) (f : Word → State) : Prop := ∀ e s1, s.Alone → s.effective w = .ok e s1 →
      match e.operand with
      | .byte a => ∀ v, s.ReadsByte a v → Completes i s (f (BitVec.ofNat 32 v.toNat))
      | .half a => ∀ v, s.ReadsHalf a v → Completes i s (f (BitVec.ofInt 32 v.toInt))
      | .word a => ∀ v, s.ReadsWord a v → Completes i s (f v)
      | .double _ => exec i s = raise .undefined s1
    (∀ m, reads (.mpmb r m) m.ofByte.word product) ∧ (∀ m, reads (.mpmh r m) m.ofHalf.word product) ∧
    (∀ m, reads (.mpmw r m) m.ofWide.word product) ∧
    (∀ m, reads (.dvmb r m) m.ofByte.word divided) ∧ (∀ m, reads (.dvmh r m) m.ofHalf.word divided) ∧
    (∀ m, reads (.dvmw r m) m.ofWide.word divided) ∧
    (∀ sr, exec (.mpr sr r) s = .next (product (s.reg sr)) ∧ exec (.dvr sr r) s = .next (divided (s.reg sr))) ∧
    (∀ v : Half, exec (.mpi r v) s = .next (product (BitVec.ofInt 32 v.toInt)) ∧
      exec (.dvi r v) s = .next (divided (BitVec.ofInt 32 v.toInt)))

/-- The register and immediate additions and subtractions, RND and ES complete, and their encodings decode to them
(R426, R427, R432, R437 to R439, R453). ES (R452) is not in the source: the spec restores it and the model presumes
it (log 31, G4); that ES and RND take the register after R modulo 8 is the spec's decision D29, which the model
follows (log 28). That the decoder ignores the unassigned bits of their encodings is its decision D19. -/
def Obligations.RegisterArithmeticComplete : Prop :=
  ∀ (s : State) (sr d : Reg) (v : Half),
    let sum (x : Int) : State :=
      (s.setReg d (BitVec.ofInt 32 x)).afterArith (outOfRange 32 x) (signCc (outOfRange 32 x) (BitVec.ofInt 32 x).toInt)
    let masked (x : Int) : State :=
      let w : Word := BitVec.ofInt 32 x &&& s.reg 4
      (s.setReg d w).afterArith (outOfRange 32 x) (signCc (outOfRange 32 x) w.toInt)
    let neg : Bool := decide ((s.reg (d + 1)).toInt < 0)
    let codes (bits : Half) (f : Reg → Reg → Instr) : Prop :=
      ∀ h : Half, h &&& 0xFC0F = bits → decode (.half h) = some (f (h.extractLsb' 4 3) (h.extractLsb' 7 3))
    let immediate (bits : Word) (f : Reg → Half → Instr) : Prop :=
      ∀ w : Word, w &&& 0xFC070000 = bits → decode (.word w) = some (f (w.extractLsb' 23 3) (w.extractLsb' 0 16))
    (codes 0x3800 .adr ∧ codes 0x3808 .adrm ∧ codes 0x3C00 .sur ∧ codes 0x3C08 .surm ∧ codes 0x0005 (fun _ r => .rnd r) ∧
      codes 0x0004 (fun _ r => .es r) ∧ immediate 0xC8010000 .adi ∧ immediate 0xC8020000 .sui) ∧
    exec (.adr sr d) s = .next (sum ((s.reg d).toInt + (s.reg sr).toInt)) ∧
    exec (.adrm sr d) s = .next (masked ((s.reg d).toInt + (s.reg sr).toInt)) ∧
    exec (.adi d v) s = .next (sum ((s.reg d).toInt + v.toInt)) ∧
    exec (.sur sr d) s = .next (sum ((s.reg d).toInt - (s.reg sr).toInt)) ∧
    exec (.surm sr d) s = .next (masked ((s.reg d).toInt - (s.reg sr).toInt)) ∧
    exec (.sui d v) s = .next (sum ((s.reg d).toInt - v.toInt)) ∧
    exec (.rnd d) s = .next (sum ((s.reg d).toInt + if neg then 1 else 0)) ∧
    exec (.es d) s = .next ((s.setReg d (if neg then 0xFFFFFFFF else 0)).setCc (signCc false (s.reg (d + 1)).toInt))

/-! ## Floating Point (50_floating_point.md) -/

/-- The floating-point instructions complete: the C bits of the effective address select word or doubleword, or are
undefined; the register or pair receives FP_ARITH's result, the condition code its sign and exception, and an
exception is an arithmetic exception (R480, R485 to R493). The undefined C bits 01 and 11, and the instruction
word's own bit 12 choosing the operation, are the spec's decision D30, which the model follows (log 28). An odd
register number in a doubleword form names the pair it lies in, its decision D1. What FP_ARITH leaves open is log 9.
-/
def Obligations.FloatingPointComplete : Prop :=
  ∀ (s : State) (r : Reg) (m : MemRef 19) (d : MemRef 17),
    let sign (x : FpSign) : Nat := if x = .positive then 4 else if x = .negative then 2 else 0
    let code (e : FpExc) (x : FpSign) : BitVec 4 :=
      if e = .none then (if x = .zero then 1 else BitVec.ofNat 4 (sign x))
      else BitVec.ofNat 4 (8 + sign x + if e = .overflow then 1 else 0)
    let computes (i : Instr) (op : FpOp) (w : Word) : Prop := ∀ e s1, s.Alone → s.effective w = .ok e s1 →
      (e.ea.toNat % 4 = 0 → ∀ v, s.ReadsWord e.ea v →
        let x := fpArith 32 op (s.reg r) v
        Completes i s ((s.setReg r x.result).afterArith (decide (x.exc ≠ .none)) (code x.exc x.sign))) ∧
      (e.ea.toNat % 4 = 2 → ∀ hi lo, s.ReadsWord (BitVec.ofNat 24 (e.ea.toNat / 8 * 8)) hi →
        s.ReadsWord (BitVec.ofNat 24 (e.ea.toNat / 8 * 8 + 4)) lo →
        let x := fpArith 64 op (s.reg (r &&& 6) ++ s.reg (r ||| 1)) (hi ++ lo)
        Completes i s (((s.setReg (r &&& 6) (x.result.extractLsb' 32 32)).setReg (r ||| 1) (x.result.extractLsb' 0 32)).afterArith
          (decide (x.exc ≠ .none)) (code x.exc x.sign))) ∧
      (e.ea.toNat % 2 = 1 → exec i s = raise .undefined s1)
    computes (.adfw r m) .add (m.ofFixed true).word ∧ computes (.adfd r d) .add (d.ofFixedDouble true).word ∧
    computes (.sufw r m) .sub (m.ofFixed false).word ∧ computes (.sufd r d) .sub (d.ofFixedDouble false).word ∧
    computes (.mpfw r m) .mul (m.ofFixed true).word ∧ computes (.mpfd r d) .mul (d.ofFixedDouble true).word ∧
    computes (.dvfw r m) .div (m.ofFixed false).word ∧ computes (.dvfd r d) .div (d.ofFixedDouble false).word

/-- FP_ARITH on normalized words gives the exact result, without an exception, where a normalized word is that
result (R481, R482, R484). R484 makes FP_ARITH a parameter; that it delivers exact results exactly is the model's
own reading of its constraints, and that zero counts as normalized its choice (log 9). -/
def Obligations.FloatingPointExactResults : Prop :=
  ∀ (op : FpOp) (a b c : Word), fpNormalized a = true → fpNormalized b = true → fpNormalized c = true →
    fpExactly op a b c →
    fpArith 32 op a b = ⟨c, .none, if c = 0 then .zero else if c.msb then .negative else .positive⟩

/-! ## Control (51_control.md) -/

/-- The PSD loads complete: LPSD at the doubleword, the map untouched; LPSDCM the same with the map of the new PSD's
process loaded where the PSD asks for it; BRI direct moves the program counter alone, and indirect loads the PSD,
with its map, or the PSW that its one indirect word addresses; BRI resets the highest active level (R501, R502,
R504; 10_state.md R39; 20_memory.md R101, R102). The one indirect level, and BRI with no active level, are the
spec's decision D12 (log 28); the wrap of the second word is log 23. The fields of the process's descriptors are the
spec's decision D22. -/
def Obligations.PsdLoadsComplete : Prop :=
  ∀ (s : State) (m : MemRef 20), s.priv = true →
    let reset (u : State) : Prop :=
      (s.active = 0 → u.active = 0) ∧
      ∀ l : Level, s.active.getLsbD l.toNat = true → (∀ k, k < l.toNat → s.active.getLsbD k = false) →
        u.active = s.active &&& ~~~(1#128 <<< l.toNat)
    let same (u : State) (map : Vector Half 32) : Prop := u.regs = s.regs ∧ u.map = map ∧ SameBytes s u ∧
      u.enabled = s.enabled ∧ u.requesting = s.requesting
    let level : Nat := levelAddress s.ext m.addr.toNat (s.indexNumber m.x)
    let at_ : Addr := BitVec.ofNat 24 (level / 4 * 4 % 2 ^ 19)
    (s.mode = .psd → s.Alone → ∀ e s1 n1 n2, s.effective m.word = .ok e s1 → s.ReadsWord (doubleAddr e.ea) n1 →
      s.ReadsWord (doubleAddr e.ea + 4) n2 →
      (∃ u, exec (.lpsd m) s = .next u ∧ u.LoadedPsd s n1 n2 ∧ same u s.map ∧ u.active = s.active) ∧
      (∀ map, s.NewMap n2 map →
        ∃ u, exec (.lpsdcm m) s = .next u ∧ u.LoadedPsd s n1 n2 ∧ same u map ∧ u.active = s.active)) ∧
    (s.cfg.role = .cpu → m.ind = false →
      ∃ u, exec (.bri m) s = .next u ∧ u.pc.toNat = level / 2 % 2 ^ 18 ∧ u.cc = s.cc ∧ u.priv = s.priv ∧ u.psd2 = s.psd2 ∧
        same u s.map ∧ reset u) ∧
    (s.cfg.role = .cpu → m.ind = true → s.mode = .psd → s.Alone → ∀ n1 n2, s.ReadsWord at_ n1 → s.ReadsWord (s.nextWord at_) n2 →
      ∀ map, s.NewMap n2 map → ∃ u, exec (.bri m) s = .next u ∧ u.LoadedPsd s n1 n2 ∧ same u map ∧ reset u) ∧
    (s.cfg.role = .cpu → m.ind = true → s.mode = .psw → s.Alone → ∀ n, s.ReadsWord at_ n →
      ∃ u, exec (.bri m) s = .next u ∧ u.priv = n.getLsbD 31 ∧ u.cc = n.extractLsb' 27 4 ∧ u.ext = n.getLsbD 26 ∧
        u.hist = n.getLsbD 25 ∧ u.pc = n.extractLsb' 1 18 ∧ same u s.map ∧ reset u)

/-- NOP changes nothing and is the halfword X'0002' (R511). -/
def Obligations.NopCompletes : Prop :=
  decode (.half 0x0002) = some .nop ∧ ∀ s : State, exec .nop s = .next s

/-- HALT, WAIT, SIPU, CALM, SETCPU and RDSTS complete (R509, R510, R512, R513, R521, R525). WAIT's program counter
is the model's reading of the return to the Wait (log 17). That WAIT while blocked is a Block Mode Timeout, that
SIPU without an IPU does nothing, that SETCPU ignores the reserved bits of its operand, and that RDSTS leaves CC1
zero, are the spec's decisions D14, D15, D17 and D18, which the model follows (log 28). The status word's bits 24
and 26, and CC3 after RDSTS, show the two flags in PSW mode too (log 41). -/
def Obligations.ControlInstructionsComplete : Prop :=
  ∀ (s : State) (r : Reg) (f : BitVec 10),
    (s.priv = true → exec .halt s = .next { s with runState := .halt }) ∧
    (s.cfg.role = .cpu → ¬(s.mode = .psd ∧ s.blocked = true) →
      exec .wait s = .next { s with runState := .wait, pc := s.instrPc }) ∧
    (s.cfg.role = .cpu → s.mode = .psd → s.blocked = true → exec .wait s = .next { s with pendingTimeout := true }) ∧
    (s.cfg.role = .ipu → s.priv = true → exec .wait s = .next { s with runState := .wait, pc := s.instrPc }) ∧
    (s.cfg.role = .cpu → exec .sipu s = .next { s with ipuStartPending := s.ipuStartPending || s.cfg.ipuPresent }) ∧
    (s.cfg.role = .cpu → exec (.calm f) s = .next { s with requesting := s.requesting ||| (1#128 <<< 0x27) }) ∧
    (s.priv = true → ((s.reg r).toNat / 2 ^ 12 % 2 = 1 → s.cfg.psdJumper = true) →
      let psd : Bool := decide ((s.reg r).toNat / 2 ^ 12 % 2 = 1 ∨ s.cfg.role = .ipu)
      exec (.setcpu r) s = .next { s with
        bmtoEnabled := decide ((s.reg r).toNat / 2 ^ 17 % 2 = 1)
        trapsEnabled := decide ((s.reg r).toNat / 2 ^ 16 % 2 = 1)
        mode := if psd then .psd else .psw
        mapped := s.mapped && psd }) ∧
    (s.priv = true → (s.reg r).toNat / 2 ^ 12 % 2 = 1 → s.cfg.psdJumper = false → exec (.setcpu r) s = raise .undefined s) ∧
    (s.cfg.psdJumper = true → s.priv = true →
      let v : Word := (s.status &&& 0xFFFFFF1E) ||| s.liveBits
      exec (.rdsts r) s = .next { s.setReg r v with
        spad := s.spad.set 0x91 (s.status &&& 0xFF)
        cc := (if s.mode = .psd then 4 else 0) + (if s.blocked then 2 else 0) + (if v.toNat / 256 = 0 then 1 else 0) }) ∧
    (s.cfg.psdJumper = false → exec (.rdsts r) s = raise .undefined s)

/-- SVC completes on a CPU in PSD mode: through the secondary vector its index selects, the old PSD with a zero
condition code and the call number are stored and the new PSD is loaded with the map it names (R514;
60_exceptions.md R626, R651; 20_memory.md R101, R102). The zero condition code in the stored PSD and the
right-justified call number are the spec's decision D16, which the model follows (log 28). The other bits of the
stored PSD and the map load rest on its decisions D4, D22 and D36. -/
def Obligations.SupervisorCallCompletes : Prop :=
  ∀ (s : State) (ix : BitVec 4) (call : BitVec 12) (table v n1 n2 : Word) (m : Vector Half 32), s.MemoryInv → s.Alone →
    s.cfg.role = .cpu → s.mode = .psd →
    s.realRead 0x180 = .ok table → s.realRead (table.extractLsb' 0 24 + BitVec.ofNat 24 (4 * ix.toNat)) = .ok v →
    s.BlockAt (v.extractLsb' 0 24) n1 n2 →
    s.EntryMap { s with cc := 0 } (v.extractLsb' 0 24) (BitVec.ofNat 32 call.toNat) n2 m →
    ∃ u, exec (.svc ix call) s = .next u ∧ u.LoadedPsd s n1 n2 ∧ u.StoredPsd { s with cc := 0 } (v.extractLsb' 0 24) ∧
      Memory.read32 u.mem (v.extractLsb' 0 24 + 16) = BitVec.ofNat 32 call.toNat ∧
      SameOutsideBlock s u (v.extractLsb' 0 24) ∧ u.regs = s.regs ∧ u.map = m ∧ u.spad = s.spad ∧
      u.active = s.active ∧ u.requesting = s.requesting

/-- SVC, CALM and SIPU on an IPU complete through their own trap vectors, with the status word as word 5 and the map
of the new PSD; SIPU signals the CPU (60_exceptions.md R681, R683, R684; 20_memory.md R101, R102). The zero
condition code in SVC's stored PSD is the spec's decision D16, which the model follows (log 28). The other bits of
the stored PSD and the map load rest on its decisions D4, D22 and D36. -/
def Obligations.IpuServiceTrapsComplete : Prop :=
  ∀ (s : State) (v n1 n2 : Word) (m : Vector Half 32), s.MemoryInv → s.Alone → s.cfg.role = .ipu → s.mode = .psd →
    s.BlockAt (v.extractLsb' 0 24) n1 n2 →
    let fifth : Word := (s.status &&& 0xFFFFFF1E) ||| s.liveBits
    let entered (i : Instr) (old : State) (done : Bool) : Prop := s.EntryMap old (v.extractLsb' 0 24) fifth n2 m →
      ∃ u, exec i s = .next u ∧ u.LoadedPsd s n1 n2 ∧ u.StoredPsd old (v.extractLsb' 0 24) ∧
        Memory.read32 u.mem (v.extractLsb' 0 24 + 16) = fifth ∧
        SameOutsideBlock s u (v.extractLsb' 0 24) ∧ u.regs = s.regs ∧ u.map = m ∧ u.runState = .run ∧
        u.status &&& 0xFFFFFF00 = 0 ∧ u.ipuDonePending = (s.ipuDonePending || done)
    (∀ (ix : BitVec 4) (call : BitVec 12) (table : Word), s.realRead 0x2E8 = .ok table →
      s.realRead (table.extractLsb' 0 24 + BitVec.ofNat 24 (4 * ix.toNat)) = .ok v →
      entered (.svc ix call) { s with cc := 0 } false) ∧
    (∀ f, s.realRead 0x2F0 = .ok v → entered (.calm f) s false) ∧
    (s.realRead 0x2F4 = .ok v → entered .sipu s true)

/-- The Execute instructions complete with the effect of their target: NOP and TRR as halfwords in either half, LI
as a word; and any target the rule allows that completes. Another Execute, RDSTS, an instruction of PSD mode alone,
an unassigned encoding, and for EXRR and EXM's right half the first half of a word instruction are undefined targets
(R505 to R508; the refused targets are the spec's decision D13). -/
def Obligations.ExecuteInstructionsComplete : Prop :=
  ∀ (s : State) (r : Reg) (m : MemRef 19),
    let allowed (i : Instr) : Prop := isPsdOnly i = false ∧ (∀ d, i ≠ .rdsts d ∧ i ≠ .exr d ∧ i ≠ .exrr d) ∧ ∀ a, i ≠ .exm a
    let done (t : State) : State := { t with execDepth := false }
    let runs (i x : Instr) : Prop :=
      (x = .nop → Completes i s (done s)) ∧
      (∀ a d, x = .trr a d → Completes i s (done ((s.setReg d (s.reg a)).setCc (signCc false (s.reg a).toInt)))) ∧
      (∀ d (v : Half), x = .li d v → Completes i s (done ((s.setReg d (BitVec.ofInt 32 v.toInt)).setCc (signCc false v.toInt))))
    (∀ h x, h = (s.reg r).extractLsb' 16 16 → isHalfword h = true → decode (.half h) = some x →
      runs (.exr r) x ∧
      (allowed x → ∀ t, exec x { s with execDepth := true } = .next t → exec (.exr r) s = .next (done t)) ∧
      (¬allowed x → exec (.exr r) s = raise .undefined s)) ∧
    (isHalfword ((s.reg r).extractLsb' 16 16) = true → decode (.half ((s.reg r).extractLsb' 16 16)) = none →
      exec (.exr r) s = raise .undefined s) ∧
    (isHalfword ((s.reg r).extractLsb' 16 16) = false →
      (∀ x, decode (.word (s.reg r)) = some x →
        runs (.exr r) x ∧
        (allowed x → ∀ t, exec x { s with execDepth := true } = .next t → exec (.exr r) s = .next (done t)) ∧
        (¬allowed x → exec (.exr r) s = raise .undefined s)) ∧
      (decode (.word (s.reg r)) = none → exec (.exr r) s = raise .undefined s)) ∧
    (∀ h x, h = (s.reg r).extractLsb' 0 16 → isHalfword h = true → decode (.half h) = some x →
      runs (.exrr r) x ∧
      (allowed x → ∀ t, exec x { s with execDepth := true } = .next t → exec (.exrr r) s = .next (done t)) ∧
      (¬allowed x → exec (.exrr r) s = raise .undefined s)) ∧
    (isHalfword ((s.reg r).extractLsb' 0 16) = false ∨ decode (.half ((s.reg r).extractLsb' 0 16)) = none →
      exec (.exrr r) s = raise .undefined s) ∧
    (∀ e s1 w, s.Alone → s.effective (m.ofFixed false).word = .ok e s1 → s.ReadsWord (wordAddr e.ea) w →
      let right : Bool := decide (e.ea.toNat / 2 % 2 = 1)
      let h : Half := if right then w.extractLsb' 0 16 else w.extractLsb' 16 16
      let target : Option Instr :=
        if isHalfword h then decode (.half h) else if right then none else decode (.word w)
      (∀ x, target = some x →
        runs (.exm m) x ∧
        ∃ b, (allowed x → ∀ t, exec x (State.withStop { s with execDepth := true } b) = .next t →
            exec (.exm m) s = .next (done t)) ∧
          (¬allowed x → exec (.exm m) s = raise .undefined (s.withStop b))) ∧
      (target = none → ∃ b, exec (.exm m) s = raise .undefined (s.withStop b)))

/-! ## Interrupt, Input/Output (52, 53) -/

/-- EI, DI, RI, AI and DAI complete on the latches of a configured level that is no Class F channel's; for any other
level they change no latch; DAI in PSD mode protects the next instruction (R540 to R546). Levels 0 and 1 may be
constantly enabled by jumper. The silent no-operation on levels 2 to X'11', on a Class F channel's level and on one
that is not configured is the spec's decision D31, which the model follows (log 28). -/
def Obligations.LevelInstructionsComplete : Prop :=
  ∀ (s : State) (l : Level), s.cfg.role = .cpu → s.priv = true →
    let bit : BitVec 128 := 1#128 <<< l.toNat
    let classF : Prop := ∃ ch ∈ s.cfg.channels, ch.cls = .classF ∧ ch.level = l
    let protect (t : State) : State := { t with nonint := s.nonint || decide (s.mode = .psd) }
    (((2 ≤ l.toNat ∧ l.toNat ≤ 0x11) ∨ classF ∨ l ∉ s.cfg.levels) →
      exec (.ei l) s = .next s ∧ exec (.di l) s = .next s ∧ exec (.ri l) s = .next s ∧ exec (.ai l) s = .next s ∧
      exec (.dai l) s = .next (protect s)) ∧
    (¬(2 ≤ l.toNat ∧ l.toNat ≤ 0x11) → ¬classF → l ∈ s.cfg.levels →
      exec (.ri l) s = .next { s with requesting := s.requesting ||| bit } ∧
      exec (.ai l) s = .next { s with active := s.active ||| bit } ∧
      exec (.dai l) s = .next (protect { s with active := s.active &&& ~~~bit }) ∧
      (2 ≤ l.toNat ∨ s.cfg.rtomSoftwareEnable = true →
        exec (.ei l) s = .next { s with enabled := s.enabled ||| bit } ∧
        exec (.di l) s = .next { s with enabled := s.enabled &&& ~~~bit, requesting := s.requesting &&& ~~~bit }) ∧
      (l.toNat < 2 → s.cfg.rtomSoftwareEnable = false → exec (.ei l) s = .next s ∧ exec (.di l) s = .next s))

/-- BEI and UEI set and clear the blocking of interrupts, privileged and in PSD mode, the count starting anew when
blocking does; an IPU has UEI alone; their halfwords are X'0006' and X'0007' (R552, R553). That the count starts
anew when blocking does is the spec's decision D38, which the model follows (log 28). -/
def Obligations.BlockingInstructionsComplete : Prop :=
  ∀ s : State,
    decode (.half 0x0006) = some .bei ∧ decode (.half 0x0007) = some .uei ∧
    (s.mode = .psw → exec .bei s = raise .undefined s ∧ exec .uei s = raise .undefined s) ∧
    (s.mode = .psd → s.cfg.role = .ipu → exec .bei s = raise .undefined s) ∧
    (s.mode = .psd → s.cfg.role = .cpu → exec .bei s =
      if s.priv then .next { s with blocked := true, blockCount := if s.blocked then s.blockCount else 0 }
      else raise .privilege s) ∧
    (s.mode = .psd → exec .uei s =
      if s.priv then .next { s with blocked := false, blockCount := 0 } else raise .privilege s)

/-- The Class F instructions complete in PSD mode, privileged, on a CPU. A channel that is not there answers 0010
(the spec's decision D33, log 28). A Class F channel is handed the command with its subaddress, and with an accepted
SIO or WCWCS the IOCLA from word 5 of its context block; it answers with one of the assigned patterns, a free value
(log 10), and when it accepts, the instruction has its effect on the processor's state. Status Stored answers SIO,
TIO and HIO alone: the address of the status goes to word 6 of the block and the request is cleared. A channel of
another class is an undefined instruction (52_interrupt.md R547 to R551; 53_input_output.md R573, R579 to R594).
That only bits 17-23 and 25-31 of the sum of register and constant name the channel and the subaddress is the spec's
decision D32, which the model follows (log 28). -/
def Obligations.ClassFInstructionsComplete : Prop :=
  ∀ (s : State) (r : Reg) (k : Half), s.mode = .psd → s.cfg.role = .cpu → s.priv = true →
    let sum : Nat := (if r = 0 then 0 else (s.reg r).toNat) + k.toNat
    let number : BitVec 7 := BitVec.ofNat 7 (sum / 256)
    let sub : BitVec 7 := BitVec.ofNat 7 sum
    let at_ (c : Option Channel) : Prop := s.cfg.channels.find? (fun ch => decide (ch.device = number)) = c
    let all : List Instr := [.eci r k, .dci r k, .aci r k, .daci r k, .sio r k, .tio r k, .stpio r k, .rschnl r k, .hio r k,
      .grio r k, .rsctl r k, .ecwcs r k, .wcwcs r k]
    (at_ none → ∀ i ∈ all, exec i s = .next { s with cc := 2, nonint := s.nonint || decide (i = .daci r k) }) ∧
    (∀ ch, at_ (some ch) → ch.cls ≠ .classF → ∀ i ∈ all, exec i s = raise .undefined s) ∧
    (∀ ch v w, at_ (some ch) → ch.cls = .classF → s.Alone → s.realRead (levelVector ch.level) = .ok v →
      s.realRead (v.extractLsb' 0 24 + 16) = .ok w → s.present (v.extractLsb' 0 24 + 20) 4 = true →
      let bit : BitVec 128 := 1#128 <<< ch.level.toNat
      let answers (i : Instr) (op : ClassFOp) (list : Bool) (enabled requesting active : BitVec 128) (lock : Option (BitVec 7)) : Prop :=
        ∃ t a, exec i s = .next t ∧ t.cc = answerCc a ∧
          t.channelOut = s.channelOut ++ [.classF op ch.device sub
            (if list = true ∧ (a = .activated ∨ a = .queued) then some (w.extractLsb' 0 24) else none)] ∧
          t.regs = s.regs ∧ t.pc = s.pc ∧ t.priv = s.priv ∧ t.mode = s.mode ∧
          t.nonint = (s.nonint || decide (i = .daci r k)) ∧
          (a = .activated ∨ a = .queued → t.enabled = enabled ∧ t.requesting = requesting ∧ t.active = active ∧
            t.wcsInterlock = lock ∧ t.mem = s.mem) ∧
          (a = .statusStored → (op = .sio ∨ op = .tio ∨ op = .hio) ∧
            (s.MemoryInv → Memory.read32 t.mem (v.extractLsb' 0 24 + 20) =
              BitVec.ofNat 32 (Config.channelStatus (s.freeIx + 1) ch.device).addr.toNat) ∧
            t.enabled = s.enabled ∧ t.requesting = s.requesting &&& ~~~bit ∧ t.active = s.active) ∧
          (a ≠ .activated → a ≠ .queued → a ≠ .statusStored →
            t.enabled = s.enabled ∧ t.requesting = s.requesting ∧ t.active = s.active ∧ t.mem = s.mem)
      let rest : Option (BitVec 7) := if s.wcsInterlock = some ch.device then none else s.wcsInterlock
      answers (.eci r k) .eci false (s.enabled ||| bit) s.requesting s.active rest ∧
      answers (.dci r k) .dci false (s.enabled &&& ~~~bit) s.requesting s.active rest ∧
      answers (.aci r k) .aci false s.enabled s.requesting (s.active ||| bit) rest ∧
      answers (.daci r k) .daci false s.enabled s.requesting (s.active &&& ~~~bit) rest ∧
      answers (.rschnl r k) .rschnl false s.enabled (s.requesting &&& ~~~bit) (s.active &&& ~~~bit) rest ∧
      answers (.ecwcs r k) .ecwcs false s.enabled s.requesting s.active (some ch.device) ∧
      answers (.sio r k) .sio true s.enabled s.requesting s.active rest ∧
      answers (.tio r k) .tio false s.enabled s.requesting s.active rest ∧
      answers (.stpio r k) .stpio false s.enabled s.requesting s.active rest ∧
      answers (.hio r k) .hio false s.enabled s.requesting s.active rest ∧
      answers (.grio r k) .grio false s.enabled s.requesting s.active rest ∧
      answers (.rsctl r k) .rsctl false s.enabled s.requesting s.active rest ∧
      (s.wcsInterlock = some ch.device → answers (.wcwcs r k) .wcwcs true s.enabled s.requesting s.active none) ∧
      (s.wcsInterlock ≠ some ch.device → exec (.wcwcs r k) s = raise (.systemCheck false) s))

/-- CD and TD complete, privileged on a CPU: an absent device leaves CD without effect and gives TD 0001; a device
of another class than F gets its command, and gives TD a result, a free value (log 10); a Class F device is a System
Check in PSD mode, and in PSW mode CD has no effect and TD the code of its level (53_input_output.md R575, R576).
What an absent device gives, and the condition code left as it was by a TD of no level in PSW mode, are the spec's
decision D33, which the model follows (log 28). -/
def Obligations.DeviceInstructionsComplete : Prop :=
  ∀ (s : State) (n : BitVec 7) (f : Half), s.cfg.role = .cpu → s.priv = true →
    let at_ (c : Option Channel) : Prop := s.cfg.channels.find? (fun ch => decide (ch.device = n)) = c
    (at_ none → exec (.cd n f) s = .next s ∧ exec (.td n f) s = .next { s with cc := 1 }) ∧
    (∀ ch, at_ (some ch) → ch.cls ≠ .classF →
      exec (.cd n f) s = .next { s with channelOut := s.channelOut ++ [.commandDevice n f] } ∧
      ∃ c : BitVec 4, exec (.td n f) s = .next { s with
        cc := c, freeIx := s.freeIx + 1, channelOut := s.channelOut ++ [.testDevice n (f &&& 0xFFF0)] }) ∧
    (∀ ch, at_ (some ch) → ch.cls = .classF →
      (s.mode = .psd → exec (.cd n f) s = raise (.systemCheck false) s ∧ exec (.td n f) s = raise (.systemCheck false) s) ∧
      (s.mode = .psw → exec (.cd n f) s = .next s ∧ exec (.td n f) s = .next { s with
        cc := if 0x4000 ≤ f.toNat then 2 else if 0x2000 ≤ f.toNat then 4 else s.cc }))

/-! ## Statements added after the first review -/

/-- FP_ARITH on normalized words, where it signals no exception: the result is normalized and has the sign it
reports; a product or quotient differs from the exact one by half a unit of the result's last digit at most, rounded
on the guard digit; a sum or difference by less than two units, for the digits that alignment shifts out may be
dropped or carried (R482 to R484, R486, R488, R490, R492). How far the rules fix a result that is not exact is the
model's reading of them, and that zero counts as normalized its choice (log 9). -/
def Obligations.FloatingPointRounding : Prop :=
  ∀ (op : FpOp) (a b : Word), fpNormalized a = true → fpNormalized b = true → (op = .div → b ≠ 0) →
    let x := fpArith 32 op a b
    let c := x.result
    x.exc = .none →
    fpNormalized c = true ∧ x.sign = (if c = 0 then .zero else if c.msb then .negative else .positive) ∧
    match op with
    | .add => |fpInteger c * 16 ^ fpExponent c - (fpInteger a * 16 ^ fpExponent a + fpInteger b * 16 ^ fpExponent b)| <
        2 * 16 ^ fpExponent c
    | .sub => |fpInteger c * 16 ^ fpExponent c - (fpInteger a * 16 ^ fpExponent a - fpInteger b * 16 ^ fpExponent b)| <
        2 * 16 ^ fpExponent c
    | .mul => 2 * |fpInteger c * 16 ^ (fpExponent c + 70) - fpInteger a * fpInteger b * 16 ^ (fpExponent a + fpExponent b)| ≤
        16 ^ (fpExponent c + 70)
    | .div => 2 * |fpInteger c * fpInteger b * 16 ^ (fpExponent c + fpExponent b) - fpInteger a * 16 ^ (fpExponent a + 70)| ≤
        |fpInteger b| * 16 ^ (fpExponent c + fpExponent b)

/-- A memory error met by a trap entry, an interrupt entry or the map walk of a context switch becomes a Machine
Check, whose entry stores the PSD that was current when the failing entry began; a memory error in the Machine
Check's own entry is the trap halt, and so is one in an interrupt entry of PSW mode (60_exceptions.md R632, R670,
R671; 20_memory.md R102). The error may be on the vector, on a store into the context block, on a read of the new
PSD, or on any read of the map walk; what was stored before it stays (for a Class F channel's level, an error after
the old PSD is stored is not stated). The trap halt inside the Machine Check's own entry is the spec's decision D39,
the fields of the process's descriptors its decision D22, which the model follows (log 28). That the words stored,
and the map entries loaded, before the error stay, and that the status word of the failing entry is cleared once
stored, is log 19. -/
def Obligations.MemoryErrorsDuringEntry : Prop :=
  ∀ (s : State) (e : MemError), s.MemoryInv → s.Alone → s.cfg.role = .cpu →
    let bits : Word := if e = .parity then 0x00800000 else 0x00200000
    let fifth (extra : Word) : Word := ((s.status ||| extra) &&& 0xFFFFFF1E) ||| s.liveBits
    let word (stored : Bool) (extra : Word) : Word :=
      (((if stored then s.status &&& 0xFF else s.status ||| extra) ||| bits) &&& 0xFFFFFF1E) ||| s.liveBits
    let halts (p u : State) (vector : Addr) (w : Word) : Prop :=
      u.runState = .halt ∧ u.pc.toNat * 2 = vector.toNat ∧ u.regs = s.regs ∧ u.priv = s.priv ∧ u.cc = s.cc ∧
      u.active = s.active ∧ u.panel.trapHaltLight = true ∧ Memory.read32 u.mem 0x530 = BitVec.ofNat 32 s.psd1Number ∧
      Memory.read32 u.mem 0x538 = w ∧
      (∀ x : Addr, (x.toNat < 0x530 ∨ 0x544 ≤ x.toNat) → Memory.read u.mem x.toNat = Memory.read p.mem x.toNat)
    let checked (p u : State) (w : Word) (map : Vector Half 32) : Prop :=
      ∀ v n1 n2, p.realRead 0x184 = .ok v → p.BlockAt (v.extractLsb' 0 24) n1 n2 → keepsMap n2 →
        u.LoadedPsd s n1 n2 ∧ u.StoredPsd s (v.extractLsb' 0 24) ∧
        Memory.read32 u.mem (v.extractLsb' 0 24 + 16) = w ∧ SameOutsideBlock p u (v.extractLsb' 0 24) ∧
        u.regs = s.regs ∧ u.map = map ∧ u.active = s.active ∧ (e = .parity → u.panel.parityLight = true)
    (s.mode = .psd → s.trapsEnabled = true →
      (∀ (t : Trap) (p : State) (stored : Bool) (map : Vector Half 32), (∀ c, t ≠ .machineCheck c) →
        s.TrapFails e t.vector (fifth (t.statusBits .psd)) p stored map →
        ∃ u, raise t s = .next u ∧ checked p u (word stored (t.statusBits .psd)) map ∧ u.requesting = s.requesting) ∧
      (∀ (l : Level) (p : State) (map : Vector Half 32), s.LevelFails e l p map →
        checked p (interruptEntry l s) (word false 0) map ∧
        (interruptEntry l s).requesting = s.requesting &&& ~~~(1#128 <<< l.toNat)) ∧
      (∀ (c : CheckCause) (p : State) (stored : Bool) (map : Vector Half 32), s.present 0x530 20 = true →
        s.TrapFails e 0x184 (fifth ((Trap.machineCheck c).statusBits .psd)) p stored map →
        ∃ u, raise (.machineCheck c) s = .next u ∧ halts p u 0x184 (word stored ((Trap.machineCheck c).statusBits .psd)) ∧
          Memory.read32 u.mem 0x534 = s.psd2 ||| (if s.blocked then 0x4000 else 0))) ∧
    (s.mode = .psd → s.priv = true → ∀ (m : MemRef 20) (f : Effective) (s1 : State) (n1 n2 : Word) (map : Vector Half 32),
      s.effective m.word = .ok f s1 → s.ReadsWord (doubleAddr f.ea) n1 → s.ReadsWord (doubleAddr f.ea + 4) n2 → ¬keepsMap n2 →
      s.WalkFails n2 e map →
      ∃ b, exec (.lpsdcm m) s = raise (.machineCheck (.memory e)) (State.withStop { s with map := map } b)) ∧
    (s.mode = .psw → s.present 0x530 20 = true → ∀ (l : Level) (p : State), s.PswLevelFails e l p →
      halts p (interruptEntry l s) (levelVector l) (word false 0) ∧
      Memory.read32 (interruptEntry l s).mem 0x534 = Memory.read32 p.mem 0x534)
end

