-- ==== Sys2Proof/Laws/State.lean ====
section
/-! SUPPORT. One lemma per field per update: an update leaves the fields it does not name. -/

namespace Sys2Proof.Machine

/-- A bus agent's write changes memory, and the marks of bad bytes, alone. -/
theorem State.busWrite_frame (s : State) (a : Addr) (b : Byte) : ∃ m p, s.busWrite a b = { s with mem := m, parityBad := p } := by
  unfold State.busWrite
  split
  · exact ⟨_, _, rfl⟩
  · exact ⟨s.mem, s.parityBad, rfl⟩

theorem State.busWrites_frame : ∀ (l : List (Addr × Byte)) (s : State), ∃ m p, s.busWrites l = { s with mem := m, parityBad := p }
  | [], s => ⟨s.mem, s.parityBad, rfl⟩
  | (a, b) :: l, s => by
    obtain ⟨m, p, h⟩ := State.busWrite_frame s a b
    obtain ⟨m', p', h'⟩ := State.busWrites_frame l (s.busWrite a b)
    rw [h] at h'
    exact ⟨m', p', by show (s.busWrite a b).busWrites l = _; rw [h]; exact h'⟩

/-- What the bus agents do before a transaction: memory, the marks of bad bytes, and what they have still to do. -/
theorem State.transact_frame (s : State) :
    s.transact = { s with mem := s.transact.mem, parityBad := s.transact.parityBad, bus := s.transact.bus } := by
  have h : ∃ m p b, s.transact = { s with mem := m, parityBad := p, bus := b } := by
    unfold State.transact
    split
    · exact ⟨s.mem, s.parityBad, s.bus, rfl⟩
    · split
      · exact ⟨s.mem, s.parityBad, s.bus, rfl⟩
      · rename_i l rest _
        obtain ⟨m, p, h⟩ := State.busWrites_frame l { s with bus := rest }
        exact ⟨m, p, rest, h⟩
  obtain ⟨m, p, b, h⟩ := h
  rw [h]

/-- With no bus agent's write to come, a transaction finds memory as it was. -/
theorem State.transact_of_bus {s : State} (h : s.bus = []) : s.transact = s := by
  unfold State.transact
  rw [h]
  split <;> rfl

/-- Under the memory word lock too (20_memory.md R120). -/
theorem State.transact_of_lock {s : State} (h : s.memLock = true) : s.transact = s := by
  unfold State.transact
  rw [if_pos h]

@[simp] theorem State.setReg_cfg (s : State) (r : Reg) (v : Word) : (s.setReg r v).cfg = s.cfg := rfl
@[simp] theorem State.setReg_mode (s : State) (r : Reg) (v : Word) : (s.setReg r v).mode = s.mode := rfl
@[simp] theorem State.setReg_priv (s : State) (r : Reg) (v : Word) : (s.setReg r v).priv = s.priv := rfl
@[simp] theorem State.setReg_cc (s : State) (r : Reg) (v : Word) : (s.setReg r v).cc = s.cc := rfl
@[simp] theorem State.setReg_ext (s : State) (r : Reg) (v : Word) : (s.setReg r v).ext = s.ext := rfl
@[simp] theorem State.setReg_hist (s : State) (r : Reg) (v : Word) : (s.setReg r v).hist = s.hist := rfl
@[simp] theorem State.setReg_aexp (s : State) (r : Reg) (v : Word) : (s.setReg r v).aexp = s.aexp := rfl
@[simp] theorem State.setReg_pc (s : State) (r : Reg) (v : Word) : (s.setReg r v).pc = s.pc := rfl
@[simp] theorem State.setReg_psd2 (s : State) (r : Reg) (v : Word) : (s.setReg r v).psd2 = s.psd2 := rfl
@[simp] theorem State.setReg_blocked (s : State) (r : Reg) (v : Word) : (s.setReg r v).blocked = s.blocked := rfl
@[simp] theorem State.setReg_blockCount (s : State) (r : Reg) (v : Word) : (s.setReg r v).blockCount = s.blockCount := rfl
@[simp] theorem State.setReg_mapped (s : State) (r : Reg) (v : Word) : (s.setReg r v).mapped = s.mapped := rfl
@[simp] theorem State.setReg_map (s : State) (r : Reg) (v : Word) : (s.setReg r v).map = s.map := rfl
@[simp] theorem State.setReg_prot (s : State) (r : Reg) (v : Word) : (s.setReg r v).prot = s.prot := rfl
@[simp] theorem State.setReg_spad (s : State) (r : Reg) (v : Word) : (s.setReg r v).spad = s.spad := rfl
@[simp] theorem State.setReg_trapsEnabled (s : State) (r : Reg) (v : Word) : (s.setReg r v).trapsEnabled = s.trapsEnabled := rfl
@[simp] theorem State.setReg_bmtoEnabled (s : State) (r : Reg) (v : Word) : (s.setReg r v).bmtoEnabled = s.bmtoEnabled := rfl
@[simp] theorem State.setReg_csw (s : State) (r : Reg) (v : Word) : (s.setReg r v).csw = s.csw := rfl
@[simp] theorem State.setReg_wcs (s : State) (r : Reg) (v : Word) : (s.setReg r v).wcs = s.wcs := rfl
@[simp] theorem State.setReg_enabled (s : State) (r : Reg) (v : Word) : (s.setReg r v).enabled = s.enabled := rfl
@[simp] theorem State.setReg_requesting (s : State) (r : Reg) (v : Word) : (s.setReg r v).requesting = s.requesting := rfl
@[simp] theorem State.setReg_active (s : State) (r : Reg) (v : Word) : (s.setReg r v).active = s.active := rfl
@[simp] theorem State.setReg_runState (s : State) (r : Reg) (v : Word) : (s.setReg r v).runState = s.runState := rfl
@[simp] theorem State.setReg_execDepth (s : State) (r : Reg) (v : Word) : (s.setReg r v).execDepth = s.execDepth := rfl
@[simp] theorem State.setReg_nonint (s : State) (r : Reg) (v : Word) : (s.setReg r v).nonint = s.nonint := rfl
@[simp] theorem State.setReg_memLock (s : State) (r : Reg) (v : Word) : (s.setReg r v).memLock = s.memLock := rfl
@[simp] theorem State.setReg_intervalTimer (s : State) (r : Reg) (v : Word) : (s.setReg r v).intervalTimer = s.intervalTimer := rfl
@[simp] theorem State.setReg_wcsInterlock (s : State) (r : Reg) (v : Word) : (s.setReg r v).wcsInterlock = s.wcsInterlock := rfl
@[simp] theorem State.setReg_ipuStartPending (s : State) (r : Reg) (v : Word) : (s.setReg r v).ipuStartPending = s.ipuStartPending := rfl
@[simp] theorem State.setReg_ipuDonePending (s : State) (r : Reg) (v : Word) : (s.setReg r v).ipuDonePending = s.ipuDonePending := rfl
@[simp] theorem State.setReg_mem (s : State) (r : Reg) (v : Word) : (s.setReg r v).mem = s.mem := rfl
@[simp] theorem State.setReg_panel (s : State) (r : Reg) (v : Word) : (s.setReg r v).panel = s.panel := rfl
@[simp] theorem State.setReg_instrPc (s : State) (r : Reg) (v : Word) : (s.setReg r v).instrPc = s.instrPc := rfl
@[simp] theorem State.setReg_abandoned (s : State) (r : Reg) (v : Word) : (s.setReg r v).abandoned = s.abandoned := rfl
@[simp] theorem State.setReg_pendingArith (s : State) (r : Reg) (v : Word) : (s.setReg r v).pendingArith = s.pendingArith := rfl
@[simp] theorem State.setReg_pendingTimeout (s : State) (r : Reg) (v : Word) : (s.setReg r v).pendingTimeout = s.pendingTimeout := rfl
@[simp] theorem State.setReg_pendingPower (s : State) (r : Reg) (v : Word) : (s.setReg r v).pendingPower = s.pendingPower := rfl
@[simp] theorem State.setReg_noHalt (s : State) (r : Reg) (v : Word) : (s.setReg r v).noHalt = s.noHalt := rfl
@[simp] theorem State.setReg_haltRequest (s : State) (r : Reg) (v : Word) : (s.setReg r v).haltRequest = s.haltRequest := rfl
@[simp] theorem State.setReg_stepping (s : State) (r : Reg) (v : Word) : (s.setReg r v).stepping = s.stepping := rfl
@[simp] theorem State.setReg_stopHit (s : State) (r : Reg) (v : Word) : (s.setReg r v).stopHit = s.stopHit := rfl
@[simp] theorem State.setReg_parityBad (s : State) (r : Reg) (v : Word) : (s.setReg r v).parityBad = s.parityBad := rfl
@[simp] theorem State.setReg_inputs (s : State) (r : Reg) (v : Word) : (s.setReg r v).inputs = s.inputs := rfl
@[simp] theorem State.setReg_bus (s : State) (r : Reg) (v : Word) : (s.setReg r v).bus = s.bus := rfl
@[simp] theorem State.setReg_channelOut (s : State) (r : Reg) (v : Word) : (s.setReg r v).channelOut = s.channelOut := rfl
@[simp] theorem State.setReg_freeIx (s : State) (r : Reg) (v : Word) : (s.setReg r v).freeIx = s.freeIx := rfl

@[simp] theorem State.setRegPair_cfg (s : State) (r : Reg) (v : Double) : (s.setRegPair r v).cfg = s.cfg := rfl
@[simp] theorem State.setRegPair_mode (s : State) (r : Reg) (v : Double) : (s.setRegPair r v).mode = s.mode := rfl
@[simp] theorem State.setRegPair_priv (s : State) (r : Reg) (v : Double) : (s.setRegPair r v).priv = s.priv := rfl
@[simp] theorem State.setRegPair_cc (s : State) (r : Reg) (v : Double) : (s.setRegPair r v).cc = s.cc := rfl
@[simp] theorem State.setRegPair_ext (s : State) (r : Reg) (v : Double) : (s.setRegPair r v).ext = s.ext := rfl
@[simp] theorem State.setRegPair_hist (s : State) (r : Reg) (v : Double) : (s.setRegPair r v).hist = s.hist := rfl
@[simp] theorem State.setRegPair_aexp (s : State) (r : Reg) (v : Double) : (s.setRegPair r v).aexp = s.aexp := rfl
@[simp] theorem State.setRegPair_pc (s : State) (r : Reg) (v : Double) : (s.setRegPair r v).pc = s.pc := rfl
@[simp] theorem State.setRegPair_psd2 (s : State) (r : Reg) (v : Double) : (s.setRegPair r v).psd2 = s.psd2 := rfl
@[simp] theorem State.setRegPair_blocked (s : State) (r : Reg) (v : Double) : (s.setRegPair r v).blocked = s.blocked := rfl
@[simp] theorem State.setRegPair_blockCount (s : State) (r : Reg) (v : Double) : (s.setRegPair r v).blockCount = s.blockCount := rfl
@[simp] theorem State.setRegPair_mapped (s : State) (r : Reg) (v : Double) : (s.setRegPair r v).mapped = s.mapped := rfl
@[simp] theorem State.setRegPair_map (s : State) (r : Reg) (v : Double) : (s.setRegPair r v).map = s.map := rfl
@[simp] theorem State.setRegPair_prot (s : State) (r : Reg) (v : Double) : (s.setRegPair r v).prot = s.prot := rfl
@[simp] theorem State.setRegPair_spad (s : State) (r : Reg) (v : Double) : (s.setRegPair r v).spad = s.spad := rfl
@[simp] theorem State.setRegPair_trapsEnabled (s : State) (r : Reg) (v : Double) : (s.setRegPair r v).trapsEnabled = s.trapsEnabled := rfl
@[simp] theorem State.setRegPair_bmtoEnabled (s : State) (r : Reg) (v : Double) : (s.setRegPair r v).bmtoEnabled = s.bmtoEnabled := rfl
@[simp] theorem State.setRegPair_csw (s : State) (r : Reg) (v : Double) : (s.setRegPair r v).csw = s.csw := rfl
@[simp] theorem State.setRegPair_wcs (s : State) (r : Reg) (v : Double) : (s.setRegPair r v).wcs = s.wcs := rfl
@[simp] theorem State.setRegPair_enabled (s : State) (r : Reg) (v : Double) : (s.setRegPair r v).enabled = s.enabled := rfl
@[simp] theorem State.setRegPair_requesting (s : State) (r : Reg) (v : Double) : (s.setRegPair r v).requesting = s.requesting := rfl
@[simp] theorem State.setRegPair_active (s : State) (r : Reg) (v : Double) : (s.setRegPair r v).active = s.active := rfl
@[simp] theorem State.setRegPair_runState (s : State) (r : Reg) (v : Double) : (s.setRegPair r v).runState = s.runState := rfl
@[simp] theorem State.setRegPair_execDepth (s : State) (r : Reg) (v : Double) : (s.setRegPair r v).execDepth = s.execDepth := rfl
@[simp] theorem State.setRegPair_nonint (s : State) (r : Reg) (v : Double) : (s.setRegPair r v).nonint = s.nonint := rfl
@[simp] theorem State.setRegPair_memLock (s : State) (r : Reg) (v : Double) : (s.setRegPair r v).memLock = s.memLock := rfl
@[simp] theorem State.setRegPair_intervalTimer (s : State) (r : Reg) (v : Double) : (s.setRegPair r v).intervalTimer = s.intervalTimer := rfl
@[simp] theorem State.setRegPair_wcsInterlock (s : State) (r : Reg) (v : Double) : (s.setRegPair r v).wcsInterlock = s.wcsInterlock := rfl
@[simp] theorem State.setRegPair_ipuStartPending (s : State) (r : Reg) (v : Double) : (s.setRegPair r v).ipuStartPending = s.ipuStartPending := rfl
@[simp] theorem State.setRegPair_ipuDonePending (s : State) (r : Reg) (v : Double) : (s.setRegPair r v).ipuDonePending = s.ipuDonePending := rfl
@[simp] theorem State.setRegPair_mem (s : State) (r : Reg) (v : Double) : (s.setRegPair r v).mem = s.mem := rfl
@[simp] theorem State.setRegPair_panel (s : State) (r : Reg) (v : Double) : (s.setRegPair r v).panel = s.panel := rfl
@[simp] theorem State.setRegPair_instrPc (s : State) (r : Reg) (v : Double) : (s.setRegPair r v).instrPc = s.instrPc := rfl
@[simp] theorem State.setRegPair_abandoned (s : State) (r : Reg) (v : Double) : (s.setRegPair r v).abandoned = s.abandoned := rfl
@[simp] theorem State.setRegPair_pendingArith (s : State) (r : Reg) (v : Double) : (s.setRegPair r v).pendingArith = s.pendingArith := rfl
@[simp] theorem State.setRegPair_pendingTimeout (s : State) (r : Reg) (v : Double) : (s.setRegPair r v).pendingTimeout = s.pendingTimeout := rfl
@[simp] theorem State.setRegPair_pendingPower (s : State) (r : Reg) (v : Double) : (s.setRegPair r v).pendingPower = s.pendingPower := rfl
@[simp] theorem State.setRegPair_noHalt (s : State) (r : Reg) (v : Double) : (s.setRegPair r v).noHalt = s.noHalt := rfl
@[simp] theorem State.setRegPair_haltRequest (s : State) (r : Reg) (v : Double) : (s.setRegPair r v).haltRequest = s.haltRequest := rfl
@[simp] theorem State.setRegPair_stepping (s : State) (r : Reg) (v : Double) : (s.setRegPair r v).stepping = s.stepping := rfl
@[simp] theorem State.setRegPair_stopHit (s : State) (r : Reg) (v : Double) : (s.setRegPair r v).stopHit = s.stopHit := rfl
@[simp] theorem State.setRegPair_parityBad (s : State) (r : Reg) (v : Double) : (s.setRegPair r v).parityBad = s.parityBad := rfl
@[simp] theorem State.setRegPair_inputs (s : State) (r : Reg) (v : Double) : (s.setRegPair r v).inputs = s.inputs := rfl
@[simp] theorem State.setRegPair_bus (s : State) (r : Reg) (v : Double) : (s.setRegPair r v).bus = s.bus := rfl
@[simp] theorem State.setRegPair_channelOut (s : State) (r : Reg) (v : Double) : (s.setRegPair r v).channelOut = s.channelOut := rfl
@[simp] theorem State.setRegPair_freeIx (s : State) (r : Reg) (v : Double) : (s.setRegPair r v).freeIx = s.freeIx := rfl

@[simp] theorem State.setCc_cfg (s : State) (v : BitVec 4) : (s.setCc v).cfg = s.cfg := rfl
@[simp] theorem State.setCc_regs (s : State) (v : BitVec 4) : (s.setCc v).regs = s.regs := rfl
@[simp] theorem State.setCc_mode (s : State) (v : BitVec 4) : (s.setCc v).mode = s.mode := rfl
@[simp] theorem State.setCc_priv (s : State) (v : BitVec 4) : (s.setCc v).priv = s.priv := rfl
@[simp] theorem State.setCc_ext (s : State) (v : BitVec 4) : (s.setCc v).ext = s.ext := rfl
@[simp] theorem State.setCc_hist (s : State) (v : BitVec 4) : (s.setCc v).hist = s.hist := rfl
@[simp] theorem State.setCc_aexp (s : State) (v : BitVec 4) : (s.setCc v).aexp = s.aexp := rfl
@[simp] theorem State.setCc_pc (s : State) (v : BitVec 4) : (s.setCc v).pc = s.pc := rfl
@[simp] theorem State.setCc_psd2 (s : State) (v : BitVec 4) : (s.setCc v).psd2 = s.psd2 := rfl
@[simp] theorem State.setCc_blocked (s : State) (v : BitVec 4) : (s.setCc v).blocked = s.blocked := rfl
@[simp] theorem State.setCc_blockCount (s : State) (v : BitVec 4) : (s.setCc v).blockCount = s.blockCount := rfl
@[simp] theorem State.setCc_mapped (s : State) (v : BitVec 4) : (s.setCc v).mapped = s.mapped := rfl
@[simp] theorem State.setCc_map (s : State) (v : BitVec 4) : (s.setCc v).map = s.map := rfl
@[simp] theorem State.setCc_prot (s : State) (v : BitVec 4) : (s.setCc v).prot = s.prot := rfl
@[simp] theorem State.setCc_spad (s : State) (v : BitVec 4) : (s.setCc v).spad = s.spad := rfl
@[simp] theorem State.setCc_trapsEnabled (s : State) (v : BitVec 4) : (s.setCc v).trapsEnabled = s.trapsEnabled := rfl
@[simp] theorem State.setCc_bmtoEnabled (s : State) (v : BitVec 4) : (s.setCc v).bmtoEnabled = s.bmtoEnabled := rfl
@[simp] theorem State.setCc_csw (s : State) (v : BitVec 4) : (s.setCc v).csw = s.csw := rfl
@[simp] theorem State.setCc_wcs (s : State) (v : BitVec 4) : (s.setCc v).wcs = s.wcs := rfl
@[simp] theorem State.setCc_enabled (s : State) (v : BitVec 4) : (s.setCc v).enabled = s.enabled := rfl
@[simp] theorem State.setCc_requesting (s : State) (v : BitVec 4) : (s.setCc v).requesting = s.requesting := rfl
@[simp] theorem State.setCc_active (s : State) (v : BitVec 4) : (s.setCc v).active = s.active := rfl
@[simp] theorem State.setCc_runState (s : State) (v : BitVec 4) : (s.setCc v).runState = s.runState := rfl
@[simp] theorem State.setCc_execDepth (s : State) (v : BitVec 4) : (s.setCc v).execDepth = s.execDepth := rfl
@[simp] theorem State.setCc_nonint (s : State) (v : BitVec 4) : (s.setCc v).nonint = s.nonint := rfl
@[simp] theorem State.setCc_memLock (s : State) (v : BitVec 4) : (s.setCc v).memLock = s.memLock := rfl
@[simp] theorem State.setCc_intervalTimer (s : State) (v : BitVec 4) : (s.setCc v).intervalTimer = s.intervalTimer := rfl
@[simp] theorem State.setCc_wcsInterlock (s : State) (v : BitVec 4) : (s.setCc v).wcsInterlock = s.wcsInterlock := rfl
@[simp] theorem State.setCc_ipuStartPending (s : State) (v : BitVec 4) : (s.setCc v).ipuStartPending = s.ipuStartPending := rfl
@[simp] theorem State.setCc_ipuDonePending (s : State) (v : BitVec 4) : (s.setCc v).ipuDonePending = s.ipuDonePending := rfl
@[simp] theorem State.setCc_mem (s : State) (v : BitVec 4) : (s.setCc v).mem = s.mem := rfl
@[simp] theorem State.setCc_panel (s : State) (v : BitVec 4) : (s.setCc v).panel = s.panel := rfl
@[simp] theorem State.setCc_instrPc (s : State) (v : BitVec 4) : (s.setCc v).instrPc = s.instrPc := rfl
@[simp] theorem State.setCc_abandoned (s : State) (v : BitVec 4) : (s.setCc v).abandoned = s.abandoned := rfl
@[simp] theorem State.setCc_pendingArith (s : State) (v : BitVec 4) : (s.setCc v).pendingArith = s.pendingArith := rfl
@[simp] theorem State.setCc_pendingTimeout (s : State) (v : BitVec 4) : (s.setCc v).pendingTimeout = s.pendingTimeout := rfl
@[simp] theorem State.setCc_pendingPower (s : State) (v : BitVec 4) : (s.setCc v).pendingPower = s.pendingPower := rfl
@[simp] theorem State.setCc_noHalt (s : State) (v : BitVec 4) : (s.setCc v).noHalt = s.noHalt := rfl
@[simp] theorem State.setCc_haltRequest (s : State) (v : BitVec 4) : (s.setCc v).haltRequest = s.haltRequest := rfl
@[simp] theorem State.setCc_stepping (s : State) (v : BitVec 4) : (s.setCc v).stepping = s.stepping := rfl
@[simp] theorem State.setCc_stopHit (s : State) (v : BitVec 4) : (s.setCc v).stopHit = s.stopHit := rfl
@[simp] theorem State.setCc_parityBad (s : State) (v : BitVec 4) : (s.setCc v).parityBad = s.parityBad := rfl
@[simp] theorem State.setCc_inputs (s : State) (v : BitVec 4) : (s.setCc v).inputs = s.inputs := rfl
@[simp] theorem State.setCc_bus (s : State) (v : BitVec 4) : (s.setCc v).bus = s.bus := rfl
@[simp] theorem State.setCc_channelOut (s : State) (v : BitVec 4) : (s.setCc v).channelOut = s.channelOut := rfl
@[simp] theorem State.setCc_freeIx (s : State) (v : BitVec 4) : (s.setCc v).freeIx = s.freeIx := rfl

@[simp] theorem State.jump_cfg (s : State) (a : Addr) : (s.jump a).cfg = s.cfg := rfl
@[simp] theorem State.jump_regs (s : State) (a : Addr) : (s.jump a).regs = s.regs := rfl
@[simp] theorem State.jump_mode (s : State) (a : Addr) : (s.jump a).mode = s.mode := rfl
@[simp] theorem State.jump_priv (s : State) (a : Addr) : (s.jump a).priv = s.priv := rfl
@[simp] theorem State.jump_cc (s : State) (a : Addr) : (s.jump a).cc = s.cc := rfl
@[simp] theorem State.jump_ext (s : State) (a : Addr) : (s.jump a).ext = s.ext := rfl
@[simp] theorem State.jump_hist (s : State) (a : Addr) : (s.jump a).hist = s.hist := rfl
@[simp] theorem State.jump_aexp (s : State) (a : Addr) : (s.jump a).aexp = s.aexp := rfl
@[simp] theorem State.jump_psd2 (s : State) (a : Addr) : (s.jump a).psd2 = s.psd2 := rfl
@[simp] theorem State.jump_blocked (s : State) (a : Addr) : (s.jump a).blocked = s.blocked := rfl
@[simp] theorem State.jump_blockCount (s : State) (a : Addr) : (s.jump a).blockCount = s.blockCount := rfl
@[simp] theorem State.jump_mapped (s : State) (a : Addr) : (s.jump a).mapped = s.mapped := rfl
@[simp] theorem State.jump_map (s : State) (a : Addr) : (s.jump a).map = s.map := rfl
@[simp] theorem State.jump_prot (s : State) (a : Addr) : (s.jump a).prot = s.prot := rfl
@[simp] theorem State.jump_spad (s : State) (a : Addr) : (s.jump a).spad = s.spad := rfl
@[simp] theorem State.jump_trapsEnabled (s : State) (a : Addr) : (s.jump a).trapsEnabled = s.trapsEnabled := rfl
@[simp] theorem State.jump_bmtoEnabled (s : State) (a : Addr) : (s.jump a).bmtoEnabled = s.bmtoEnabled := rfl
@[simp] theorem State.jump_csw (s : State) (a : Addr) : (s.jump a).csw = s.csw := rfl
@[simp] theorem State.jump_wcs (s : State) (a : Addr) : (s.jump a).wcs = s.wcs := rfl
@[simp] theorem State.jump_enabled (s : State) (a : Addr) : (s.jump a).enabled = s.enabled := rfl
@[simp] theorem State.jump_requesting (s : State) (a : Addr) : (s.jump a).requesting = s.requesting := rfl
@[simp] theorem State.jump_active (s : State) (a : Addr) : (s.jump a).active = s.active := rfl
@[simp] theorem State.jump_runState (s : State) (a : Addr) : (s.jump a).runState = s.runState := rfl
@[simp] theorem State.jump_execDepth (s : State) (a : Addr) : (s.jump a).execDepth = s.execDepth := rfl
@[simp] theorem State.jump_nonint (s : State) (a : Addr) : (s.jump a).nonint = s.nonint := rfl
@[simp] theorem State.jump_memLock (s : State) (a : Addr) : (s.jump a).memLock = s.memLock := rfl
@[simp] theorem State.jump_intervalTimer (s : State) (a : Addr) : (s.jump a).intervalTimer = s.intervalTimer := rfl
@[simp] theorem State.jump_wcsInterlock (s : State) (a : Addr) : (s.jump a).wcsInterlock = s.wcsInterlock := rfl
@[simp] theorem State.jump_ipuStartPending (s : State) (a : Addr) : (s.jump a).ipuStartPending = s.ipuStartPending := rfl
@[simp] theorem State.jump_ipuDonePending (s : State) (a : Addr) : (s.jump a).ipuDonePending = s.ipuDonePending := rfl
@[simp] theorem State.jump_mem (s : State) (a : Addr) : (s.jump a).mem = s.mem := rfl
@[simp] theorem State.jump_panel (s : State) (a : Addr) : (s.jump a).panel = s.panel := rfl
@[simp] theorem State.jump_instrPc (s : State) (a : Addr) : (s.jump a).instrPc = s.instrPc := rfl
@[simp] theorem State.jump_abandoned (s : State) (a : Addr) : (s.jump a).abandoned = s.abandoned := rfl
@[simp] theorem State.jump_pendingArith (s : State) (a : Addr) : (s.jump a).pendingArith = s.pendingArith := rfl
@[simp] theorem State.jump_pendingTimeout (s : State) (a : Addr) : (s.jump a).pendingTimeout = s.pendingTimeout := rfl
@[simp] theorem State.jump_pendingPower (s : State) (a : Addr) : (s.jump a).pendingPower = s.pendingPower := rfl
@[simp] theorem State.jump_noHalt (s : State) (a : Addr) : (s.jump a).noHalt = s.noHalt := rfl
@[simp] theorem State.jump_haltRequest (s : State) (a : Addr) : (s.jump a).haltRequest = s.haltRequest := rfl
@[simp] theorem State.jump_stepping (s : State) (a : Addr) : (s.jump a).stepping = s.stepping := rfl
@[simp] theorem State.jump_stopHit (s : State) (a : Addr) : (s.jump a).stopHit = s.stopHit := rfl
@[simp] theorem State.jump_parityBad (s : State) (a : Addr) : (s.jump a).parityBad = s.parityBad := rfl
@[simp] theorem State.jump_inputs (s : State) (a : Addr) : (s.jump a).inputs = s.inputs := rfl
@[simp] theorem State.jump_bus (s : State) (a : Addr) : (s.jump a).bus = s.bus := rfl
@[simp] theorem State.jump_channelOut (s : State) (a : Addr) : (s.jump a).channelOut = s.channelOut := rfl
@[simp] theorem State.jump_freeIx (s : State) (a : Addr) : (s.jump a).freeIx = s.freeIx := rfl

@[simp] theorem State.poke8_cfg (s : State) (a : Addr) (b : Byte) : (s.poke8 a b).cfg = s.cfg := rfl
@[simp] theorem State.poke8_regs (s : State) (a : Addr) (b : Byte) : (s.poke8 a b).regs = s.regs := rfl
@[simp] theorem State.poke8_mode (s : State) (a : Addr) (b : Byte) : (s.poke8 a b).mode = s.mode := rfl
@[simp] theorem State.poke8_priv (s : State) (a : Addr) (b : Byte) : (s.poke8 a b).priv = s.priv := rfl
@[simp] theorem State.poke8_cc (s : State) (a : Addr) (b : Byte) : (s.poke8 a b).cc = s.cc := rfl
@[simp] theorem State.poke8_ext (s : State) (a : Addr) (b : Byte) : (s.poke8 a b).ext = s.ext := rfl
@[simp] theorem State.poke8_hist (s : State) (a : Addr) (b : Byte) : (s.poke8 a b).hist = s.hist := rfl
@[simp] theorem State.poke8_aexp (s : State) (a : Addr) (b : Byte) : (s.poke8 a b).aexp = s.aexp := rfl
@[simp] theorem State.poke8_pc (s : State) (a : Addr) (b : Byte) : (s.poke8 a b).pc = s.pc := rfl
@[simp] theorem State.poke8_psd2 (s : State) (a : Addr) (b : Byte) : (s.poke8 a b).psd2 = s.psd2 := rfl
@[simp] theorem State.poke8_blocked (s : State) (a : Addr) (b : Byte) : (s.poke8 a b).blocked = s.blocked := rfl
@[simp] theorem State.poke8_blockCount (s : State) (a : Addr) (b : Byte) : (s.poke8 a b).blockCount = s.blockCount := rfl
@[simp] theorem State.poke8_mapped (s : State) (a : Addr) (b : Byte) : (s.poke8 a b).mapped = s.mapped := rfl
@[simp] theorem State.poke8_map (s : State) (a : Addr) (b : Byte) : (s.poke8 a b).map = s.map := rfl
@[simp] theorem State.poke8_prot (s : State) (a : Addr) (b : Byte) : (s.poke8 a b).prot = s.prot := rfl
@[simp] theorem State.poke8_spad (s : State) (a : Addr) (b : Byte) : (s.poke8 a b).spad = s.spad := rfl
@[simp] theorem State.poke8_trapsEnabled (s : State) (a : Addr) (b : Byte) : (s.poke8 a b).trapsEnabled = s.trapsEnabled := rfl
@[simp] theorem State.poke8_bmtoEnabled (s : State) (a : Addr) (b : Byte) : (s.poke8 a b).bmtoEnabled = s.bmtoEnabled := rfl
@[simp] theorem State.poke8_csw (s : State) (a : Addr) (b : Byte) : (s.poke8 a b).csw = s.csw := rfl
@[simp] theorem State.poke8_wcs (s : State) (a : Addr) (b : Byte) : (s.poke8 a b).wcs = s.wcs := rfl
@[simp] theorem State.poke8_enabled (s : State) (a : Addr) (b : Byte) : (s.poke8 a b).enabled = s.enabled := rfl
@[simp] theorem State.poke8_requesting (s : State) (a : Addr) (b : Byte) : (s.poke8 a b).requesting = s.requesting := rfl
@[simp] theorem State.poke8_active (s : State) (a : Addr) (b : Byte) : (s.poke8 a b).active = s.active := rfl
@[simp] theorem State.poke8_runState (s : State) (a : Addr) (b : Byte) : (s.poke8 a b).runState = s.runState := rfl
@[simp] theorem State.poke8_execDepth (s : State) (a : Addr) (b : Byte) : (s.poke8 a b).execDepth = s.execDepth := rfl
@[simp] theorem State.poke8_nonint (s : State) (a : Addr) (b : Byte) : (s.poke8 a b).nonint = s.nonint := rfl
@[simp] theorem State.poke8_memLock (s : State) (a : Addr) (b : Byte) : (s.poke8 a b).memLock = s.memLock := rfl
@[simp] theorem State.poke8_intervalTimer (s : State) (a : Addr) (b : Byte) : (s.poke8 a b).intervalTimer = s.intervalTimer := rfl
@[simp] theorem State.poke8_wcsInterlock (s : State) (a : Addr) (b : Byte) : (s.poke8 a b).wcsInterlock = s.wcsInterlock := rfl
@[simp] theorem State.poke8_ipuStartPending (s : State) (a : Addr) (b : Byte) : (s.poke8 a b).ipuStartPending = s.ipuStartPending := rfl
@[simp] theorem State.poke8_ipuDonePending (s : State) (a : Addr) (b : Byte) : (s.poke8 a b).ipuDonePending = s.ipuDonePending := rfl
@[simp] theorem State.poke8_panel (s : State) (a : Addr) (b : Byte) : (s.poke8 a b).panel = s.panel := rfl
@[simp] theorem State.poke8_instrPc (s : State) (a : Addr) (b : Byte) : (s.poke8 a b).instrPc = s.instrPc := rfl
@[simp] theorem State.poke8_abandoned (s : State) (a : Addr) (b : Byte) : (s.poke8 a b).abandoned = s.abandoned := rfl
@[simp] theorem State.poke8_pendingArith (s : State) (a : Addr) (b : Byte) : (s.poke8 a b).pendingArith = s.pendingArith := rfl
@[simp] theorem State.poke8_pendingTimeout (s : State) (a : Addr) (b : Byte) : (s.poke8 a b).pendingTimeout = s.pendingTimeout := rfl
@[simp] theorem State.poke8_pendingPower (s : State) (a : Addr) (b : Byte) : (s.poke8 a b).pendingPower = s.pendingPower := rfl
@[simp] theorem State.poke8_noHalt (s : State) (a : Addr) (b : Byte) : (s.poke8 a b).noHalt = s.noHalt := rfl
@[simp] theorem State.poke8_haltRequest (s : State) (a : Addr) (b : Byte) : (s.poke8 a b).haltRequest = s.haltRequest := rfl
@[simp] theorem State.poke8_stepping (s : State) (a : Addr) (b : Byte) : (s.poke8 a b).stepping = s.stepping := rfl
@[simp] theorem State.poke8_stopHit (s : State) (a : Addr) (b : Byte) : (s.poke8 a b).stopHit = s.stopHit := rfl
@[simp] theorem State.poke8_inputs (s : State) (a : Addr) (b : Byte) : (s.poke8 a b).inputs = s.inputs := rfl
@[simp] theorem State.poke8_bus (s : State) (a : Addr) (b : Byte) : (s.poke8 a b).bus = s.bus := rfl
@[simp] theorem State.poke8_channelOut (s : State) (a : Addr) (b : Byte) : (s.poke8 a b).channelOut = s.channelOut := rfl
@[simp] theorem State.poke8_freeIx (s : State) (a : Addr) (b : Byte) : (s.poke8 a b).freeIx = s.freeIx := rfl

@[simp] theorem State.poke16_cfg (s : State) (a : Addr) (v : Half) : (s.poke16 a v).cfg = s.cfg := by simp only [State.poke16, State.poke8_cfg]
@[simp] theorem State.poke16_regs (s : State) (a : Addr) (v : Half) : (s.poke16 a v).regs = s.regs := by simp only [State.poke16, State.poke8_regs]
@[simp] theorem State.poke16_mode (s : State) (a : Addr) (v : Half) : (s.poke16 a v).mode = s.mode := by simp only [State.poke16, State.poke8_mode]
@[simp] theorem State.poke16_priv (s : State) (a : Addr) (v : Half) : (s.poke16 a v).priv = s.priv := by simp only [State.poke16, State.poke8_priv]
@[simp] theorem State.poke16_cc (s : State) (a : Addr) (v : Half) : (s.poke16 a v).cc = s.cc := by simp only [State.poke16, State.poke8_cc]
@[simp] theorem State.poke16_ext (s : State) (a : Addr) (v : Half) : (s.poke16 a v).ext = s.ext := by simp only [State.poke16, State.poke8_ext]
@[simp] theorem State.poke16_hist (s : State) (a : Addr) (v : Half) : (s.poke16 a v).hist = s.hist := by simp only [State.poke16, State.poke8_hist]
@[simp] theorem State.poke16_aexp (s : State) (a : Addr) (v : Half) : (s.poke16 a v).aexp = s.aexp := by simp only [State.poke16, State.poke8_aexp]
@[simp] theorem State.poke16_pc (s : State) (a : Addr) (v : Half) : (s.poke16 a v).pc = s.pc := by simp only [State.poke16, State.poke8_pc]
@[simp] theorem State.poke16_psd2 (s : State) (a : Addr) (v : Half) : (s.poke16 a v).psd2 = s.psd2 := by simp only [State.poke16, State.poke8_psd2]
@[simp] theorem State.poke16_blocked (s : State) (a : Addr) (v : Half) : (s.poke16 a v).blocked = s.blocked := by simp only [State.poke16, State.poke8_blocked]
@[simp] theorem State.poke16_blockCount (s : State) (a : Addr) (v : Half) : (s.poke16 a v).blockCount = s.blockCount := by simp only [State.poke16, State.poke8_blockCount]
@[simp] theorem State.poke16_mapped (s : State) (a : Addr) (v : Half) : (s.poke16 a v).mapped = s.mapped := by simp only [State.poke16, State.poke8_mapped]
@[simp] theorem State.poke16_map (s : State) (a : Addr) (v : Half) : (s.poke16 a v).map = s.map := by simp only [State.poke16, State.poke8_map]
@[simp] theorem State.poke16_prot (s : State) (a : Addr) (v : Half) : (s.poke16 a v).prot = s.prot := by simp only [State.poke16, State.poke8_prot]
@[simp] theorem State.poke16_spad (s : State) (a : Addr) (v : Half) : (s.poke16 a v).spad = s.spad := by simp only [State.poke16, State.poke8_spad]
@[simp] theorem State.poke16_trapsEnabled (s : State) (a : Addr) (v : Half) : (s.poke16 a v).trapsEnabled = s.trapsEnabled := by simp only [State.poke16, State.poke8_trapsEnabled]
@[simp] theorem State.poke16_bmtoEnabled (s : State) (a : Addr) (v : Half) : (s.poke16 a v).bmtoEnabled = s.bmtoEnabled := by simp only [State.poke16, State.poke8_bmtoEnabled]
@[simp] theorem State.poke16_csw (s : State) (a : Addr) (v : Half) : (s.poke16 a v).csw = s.csw := by simp only [State.poke16, State.poke8_csw]
@[simp] theorem State.poke16_wcs (s : State) (a : Addr) (v : Half) : (s.poke16 a v).wcs = s.wcs := by simp only [State.poke16, State.poke8_wcs]
@[simp] theorem State.poke16_enabled (s : State) (a : Addr) (v : Half) : (s.poke16 a v).enabled = s.enabled := by simp only [State.poke16, State.poke8_enabled]
@[simp] theorem State.poke16_requesting (s : State) (a : Addr) (v : Half) : (s.poke16 a v).requesting = s.requesting := by simp only [State.poke16, State.poke8_requesting]
@[simp] theorem State.poke16_active (s : State) (a : Addr) (v : Half) : (s.poke16 a v).active = s.active := by simp only [State.poke16, State.poke8_active]
@[simp] theorem State.poke16_runState (s : State) (a : Addr) (v : Half) : (s.poke16 a v).runState = s.runState := by simp only [State.poke16, State.poke8_runState]
@[simp] theorem State.poke16_execDepth (s : State) (a : Addr) (v : Half) : (s.poke16 a v).execDepth = s.execDepth := by simp only [State.poke16, State.poke8_execDepth]
@[simp] theorem State.poke16_nonint (s : State) (a : Addr) (v : Half) : (s.poke16 a v).nonint = s.nonint := by simp only [State.poke16, State.poke8_nonint]
@[simp] theorem State.poke16_memLock (s : State) (a : Addr) (v : Half) : (s.poke16 a v).memLock = s.memLock := by simp only [State.poke16, State.poke8_memLock]
@[simp] theorem State.poke16_intervalTimer (s : State) (a : Addr) (v : Half) : (s.poke16 a v).intervalTimer = s.intervalTimer := by simp only [State.poke16, State.poke8_intervalTimer]
@[simp] theorem State.poke16_wcsInterlock (s : State) (a : Addr) (v : Half) : (s.poke16 a v).wcsInterlock = s.wcsInterlock := by simp only [State.poke16, State.poke8_wcsInterlock]
@[simp] theorem State.poke16_ipuStartPending (s : State) (a : Addr) (v : Half) : (s.poke16 a v).ipuStartPending = s.ipuStartPending := by simp only [State.poke16, State.poke8_ipuStartPending]
@[simp] theorem State.poke16_ipuDonePending (s : State) (a : Addr) (v : Half) : (s.poke16 a v).ipuDonePending = s.ipuDonePending := by simp only [State.poke16, State.poke8_ipuDonePending]
@[simp] theorem State.poke16_panel (s : State) (a : Addr) (v : Half) : (s.poke16 a v).panel = s.panel := by simp only [State.poke16, State.poke8_panel]
@[simp] theorem State.poke16_instrPc (s : State) (a : Addr) (v : Half) : (s.poke16 a v).instrPc = s.instrPc := by simp only [State.poke16, State.poke8_instrPc]
@[simp] theorem State.poke16_abandoned (s : State) (a : Addr) (v : Half) : (s.poke16 a v).abandoned = s.abandoned := by simp only [State.poke16, State.poke8_abandoned]
@[simp] theorem State.poke16_pendingArith (s : State) (a : Addr) (v : Half) : (s.poke16 a v).pendingArith = s.pendingArith := by simp only [State.poke16, State.poke8_pendingArith]
@[simp] theorem State.poke16_pendingTimeout (s : State) (a : Addr) (v : Half) : (s.poke16 a v).pendingTimeout = s.pendingTimeout := by simp only [State.poke16, State.poke8_pendingTimeout]
@[simp] theorem State.poke16_pendingPower (s : State) (a : Addr) (v : Half) : (s.poke16 a v).pendingPower = s.pendingPower := by simp only [State.poke16, State.poke8_pendingPower]
@[simp] theorem State.poke16_noHalt (s : State) (a : Addr) (v : Half) : (s.poke16 a v).noHalt = s.noHalt := by simp only [State.poke16, State.poke8_noHalt]
@[simp] theorem State.poke16_haltRequest (s : State) (a : Addr) (v : Half) : (s.poke16 a v).haltRequest = s.haltRequest := by simp only [State.poke16, State.poke8_haltRequest]
@[simp] theorem State.poke16_stepping (s : State) (a : Addr) (v : Half) : (s.poke16 a v).stepping = s.stepping := by simp only [State.poke16, State.poke8_stepping]
@[simp] theorem State.poke16_stopHit (s : State) (a : Addr) (v : Half) : (s.poke16 a v).stopHit = s.stopHit := by simp only [State.poke16, State.poke8_stopHit]
@[simp] theorem State.poke16_inputs (s : State) (a : Addr) (v : Half) : (s.poke16 a v).inputs = s.inputs := by simp only [State.poke16, State.poke8_inputs]
@[simp] theorem State.poke16_bus (s : State) (a : Addr) (v : Half) : (s.poke16 a v).bus = s.bus := by simp only [State.poke16, State.poke8_bus]
@[simp] theorem State.poke16_channelOut (s : State) (a : Addr) (v : Half) : (s.poke16 a v).channelOut = s.channelOut := by simp only [State.poke16, State.poke8_channelOut]
@[simp] theorem State.poke16_freeIx (s : State) (a : Addr) (v : Half) : (s.poke16 a v).freeIx = s.freeIx := by simp only [State.poke16, State.poke8_freeIx]

@[simp] theorem State.poke32_cfg (s : State) (a : Addr) (v : Word) : (s.poke32 a v).cfg = s.cfg := by simp only [State.poke32, State.poke16_cfg]
@[simp] theorem State.poke32_regs (s : State) (a : Addr) (v : Word) : (s.poke32 a v).regs = s.regs := by simp only [State.poke32, State.poke16_regs]
@[simp] theorem State.poke32_mode (s : State) (a : Addr) (v : Word) : (s.poke32 a v).mode = s.mode := by simp only [State.poke32, State.poke16_mode]
@[simp] theorem State.poke32_priv (s : State) (a : Addr) (v : Word) : (s.poke32 a v).priv = s.priv := by simp only [State.poke32, State.poke16_priv]
@[simp] theorem State.poke32_cc (s : State) (a : Addr) (v : Word) : (s.poke32 a v).cc = s.cc := by simp only [State.poke32, State.poke16_cc]
@[simp] theorem State.poke32_ext (s : State) (a : Addr) (v : Word) : (s.poke32 a v).ext = s.ext := by simp only [State.poke32, State.poke16_ext]
@[simp] theorem State.poke32_hist (s : State) (a : Addr) (v : Word) : (s.poke32 a v).hist = s.hist := by simp only [State.poke32, State.poke16_hist]
@[simp] theorem State.poke32_aexp (s : State) (a : Addr) (v : Word) : (s.poke32 a v).aexp = s.aexp := by simp only [State.poke32, State.poke16_aexp]
@[simp] theorem State.poke32_pc (s : State) (a : Addr) (v : Word) : (s.poke32 a v).pc = s.pc := by simp only [State.poke32, State.poke16_pc]
@[simp] theorem State.poke32_psd2 (s : State) (a : Addr) (v : Word) : (s.poke32 a v).psd2 = s.psd2 := by simp only [State.poke32, State.poke16_psd2]
@[simp] theorem State.poke32_blocked (s : State) (a : Addr) (v : Word) : (s.poke32 a v).blocked = s.blocked := by simp only [State.poke32, State.poke16_blocked]
@[simp] theorem State.poke32_blockCount (s : State) (a : Addr) (v : Word) : (s.poke32 a v).blockCount = s.blockCount := by simp only [State.poke32, State.poke16_blockCount]
@[simp] theorem State.poke32_mapped (s : State) (a : Addr) (v : Word) : (s.poke32 a v).mapped = s.mapped := by simp only [State.poke32, State.poke16_mapped]
@[simp] theorem State.poke32_map (s : State) (a : Addr) (v : Word) : (s.poke32 a v).map = s.map := by simp only [State.poke32, State.poke16_map]
@[simp] theorem State.poke32_prot (s : State) (a : Addr) (v : Word) : (s.poke32 a v).prot = s.prot := by simp only [State.poke32, State.poke16_prot]
@[simp] theorem State.poke32_spad (s : State) (a : Addr) (v : Word) : (s.poke32 a v).spad = s.spad := by simp only [State.poke32, State.poke16_spad]
@[simp] theorem State.poke32_trapsEnabled (s : State) (a : Addr) (v : Word) : (s.poke32 a v).trapsEnabled = s.trapsEnabled := by simp only [State.poke32, State.poke16_trapsEnabled]
@[simp] theorem State.poke32_bmtoEnabled (s : State) (a : Addr) (v : Word) : (s.poke32 a v).bmtoEnabled = s.bmtoEnabled := by simp only [State.poke32, State.poke16_bmtoEnabled]
@[simp] theorem State.poke32_csw (s : State) (a : Addr) (v : Word) : (s.poke32 a v).csw = s.csw := by simp only [State.poke32, State.poke16_csw]
@[simp] theorem State.poke32_wcs (s : State) (a : Addr) (v : Word) : (s.poke32 a v).wcs = s.wcs := by simp only [State.poke32, State.poke16_wcs]
@[simp] theorem State.poke32_enabled (s : State) (a : Addr) (v : Word) : (s.poke32 a v).enabled = s.enabled := by simp only [State.poke32, State.poke16_enabled]
@[simp] theorem State.poke32_requesting (s : State) (a : Addr) (v : Word) : (s.poke32 a v).requesting = s.requesting := by simp only [State.poke32, State.poke16_requesting]
@[simp] theorem State.poke32_active (s : State) (a : Addr) (v : Word) : (s.poke32 a v).active = s.active := by simp only [State.poke32, State.poke16_active]
@[simp] theorem State.poke32_runState (s : State) (a : Addr) (v : Word) : (s.poke32 a v).runState = s.runState := by simp only [State.poke32, State.poke16_runState]
@[simp] theorem State.poke32_execDepth (s : State) (a : Addr) (v : Word) : (s.poke32 a v).execDepth = s.execDepth := by simp only [State.poke32, State.poke16_execDepth]
@[simp] theorem State.poke32_nonint (s : State) (a : Addr) (v : Word) : (s.poke32 a v).nonint = s.nonint := by simp only [State.poke32, State.poke16_nonint]
@[simp] theorem State.poke32_memLock (s : State) (a : Addr) (v : Word) : (s.poke32 a v).memLock = s.memLock := by simp only [State.poke32, State.poke16_memLock]
@[simp] theorem State.poke32_intervalTimer (s : State) (a : Addr) (v : Word) : (s.poke32 a v).intervalTimer = s.intervalTimer := by simp only [State.poke32, State.poke16_intervalTimer]
@[simp] theorem State.poke32_wcsInterlock (s : State) (a : Addr) (v : Word) : (s.poke32 a v).wcsInterlock = s.wcsInterlock := by simp only [State.poke32, State.poke16_wcsInterlock]
@[simp] theorem State.poke32_ipuStartPending (s : State) (a : Addr) (v : Word) : (s.poke32 a v).ipuStartPending = s.ipuStartPending := by simp only [State.poke32, State.poke16_ipuStartPending]
@[simp] theorem State.poke32_ipuDonePending (s : State) (a : Addr) (v : Word) : (s.poke32 a v).ipuDonePending = s.ipuDonePending := by simp only [State.poke32, State.poke16_ipuDonePending]
@[simp] theorem State.poke32_panel (s : State) (a : Addr) (v : Word) : (s.poke32 a v).panel = s.panel := by simp only [State.poke32, State.poke16_panel]
@[simp] theorem State.poke32_instrPc (s : State) (a : Addr) (v : Word) : (s.poke32 a v).instrPc = s.instrPc := by simp only [State.poke32, State.poke16_instrPc]
@[simp] theorem State.poke32_abandoned (s : State) (a : Addr) (v : Word) : (s.poke32 a v).abandoned = s.abandoned := by simp only [State.poke32, State.poke16_abandoned]
@[simp] theorem State.poke32_pendingArith (s : State) (a : Addr) (v : Word) : (s.poke32 a v).pendingArith = s.pendingArith := by simp only [State.poke32, State.poke16_pendingArith]
@[simp] theorem State.poke32_pendingTimeout (s : State) (a : Addr) (v : Word) : (s.poke32 a v).pendingTimeout = s.pendingTimeout := by simp only [State.poke32, State.poke16_pendingTimeout]
@[simp] theorem State.poke32_pendingPower (s : State) (a : Addr) (v : Word) : (s.poke32 a v).pendingPower = s.pendingPower := by simp only [State.poke32, State.poke16_pendingPower]
@[simp] theorem State.poke32_noHalt (s : State) (a : Addr) (v : Word) : (s.poke32 a v).noHalt = s.noHalt := by simp only [State.poke32, State.poke16_noHalt]
@[simp] theorem State.poke32_haltRequest (s : State) (a : Addr) (v : Word) : (s.poke32 a v).haltRequest = s.haltRequest := by simp only [State.poke32, State.poke16_haltRequest]
@[simp] theorem State.poke32_stepping (s : State) (a : Addr) (v : Word) : (s.poke32 a v).stepping = s.stepping := by simp only [State.poke32, State.poke16_stepping]
@[simp] theorem State.poke32_stopHit (s : State) (a : Addr) (v : Word) : (s.poke32 a v).stopHit = s.stopHit := by simp only [State.poke32, State.poke16_stopHit]
@[simp] theorem State.poke32_inputs (s : State) (a : Addr) (v : Word) : (s.poke32 a v).inputs = s.inputs := by simp only [State.poke32, State.poke16_inputs]
@[simp] theorem State.poke32_bus (s : State) (a : Addr) (v : Word) : (s.poke32 a v).bus = s.bus := by simp only [State.poke32, State.poke16_bus]
@[simp] theorem State.poke32_channelOut (s : State) (a : Addr) (v : Word) : (s.poke32 a v).channelOut = s.channelOut := by simp only [State.poke32, State.poke16_channelOut]
@[simp] theorem State.poke32_freeIx (s : State) (a : Addr) (v : Word) : (s.poke32 a v).freeIx = s.freeIx := by simp only [State.poke32, State.poke16_freeIx]

@[simp] theorem State.noteRead_cfg (s : State) (a : Addr) : (s.noteRead a).cfg = s.cfg := rfl
@[simp] theorem State.noteRead_regs (s : State) (a : Addr) : (s.noteRead a).regs = s.regs := rfl
@[simp] theorem State.noteRead_mode (s : State) (a : Addr) : (s.noteRead a).mode = s.mode := rfl
@[simp] theorem State.noteRead_priv (s : State) (a : Addr) : (s.noteRead a).priv = s.priv := rfl
@[simp] theorem State.noteRead_cc (s : State) (a : Addr) : (s.noteRead a).cc = s.cc := rfl
@[simp] theorem State.noteRead_ext (s : State) (a : Addr) : (s.noteRead a).ext = s.ext := rfl
@[simp] theorem State.noteRead_hist (s : State) (a : Addr) : (s.noteRead a).hist = s.hist := rfl
@[simp] theorem State.noteRead_aexp (s : State) (a : Addr) : (s.noteRead a).aexp = s.aexp := rfl
@[simp] theorem State.noteRead_pc (s : State) (a : Addr) : (s.noteRead a).pc = s.pc := rfl
@[simp] theorem State.noteRead_psd2 (s : State) (a : Addr) : (s.noteRead a).psd2 = s.psd2 := rfl
@[simp] theorem State.noteRead_blocked (s : State) (a : Addr) : (s.noteRead a).blocked = s.blocked := rfl
@[simp] theorem State.noteRead_blockCount (s : State) (a : Addr) : (s.noteRead a).blockCount = s.blockCount := rfl
@[simp] theorem State.noteRead_mapped (s : State) (a : Addr) : (s.noteRead a).mapped = s.mapped := rfl
@[simp] theorem State.noteRead_map (s : State) (a : Addr) : (s.noteRead a).map = s.map := rfl
@[simp] theorem State.noteRead_prot (s : State) (a : Addr) : (s.noteRead a).prot = s.prot := rfl
@[simp] theorem State.noteRead_spad (s : State) (a : Addr) : (s.noteRead a).spad = s.spad := rfl
@[simp] theorem State.noteRead_trapsEnabled (s : State) (a : Addr) : (s.noteRead a).trapsEnabled = s.trapsEnabled := rfl
@[simp] theorem State.noteRead_bmtoEnabled (s : State) (a : Addr) : (s.noteRead a).bmtoEnabled = s.bmtoEnabled := rfl
@[simp] theorem State.noteRead_csw (s : State) (a : Addr) : (s.noteRead a).csw = s.csw := rfl
@[simp] theorem State.noteRead_wcs (s : State) (a : Addr) : (s.noteRead a).wcs = s.wcs := rfl
@[simp] theorem State.noteRead_enabled (s : State) (a : Addr) : (s.noteRead a).enabled = s.enabled := rfl
@[simp] theorem State.noteRead_requesting (s : State) (a : Addr) : (s.noteRead a).requesting = s.requesting := rfl
@[simp] theorem State.noteRead_active (s : State) (a : Addr) : (s.noteRead a).active = s.active := rfl
@[simp] theorem State.noteRead_runState (s : State) (a : Addr) : (s.noteRead a).runState = s.runState := rfl
@[simp] theorem State.noteRead_execDepth (s : State) (a : Addr) : (s.noteRead a).execDepth = s.execDepth := rfl
@[simp] theorem State.noteRead_nonint (s : State) (a : Addr) : (s.noteRead a).nonint = s.nonint := rfl
@[simp] theorem State.noteRead_memLock (s : State) (a : Addr) : (s.noteRead a).memLock = s.memLock := rfl
@[simp] theorem State.noteRead_intervalTimer (s : State) (a : Addr) : (s.noteRead a).intervalTimer = s.intervalTimer := rfl
@[simp] theorem State.noteRead_wcsInterlock (s : State) (a : Addr) : (s.noteRead a).wcsInterlock = s.wcsInterlock := rfl
@[simp] theorem State.noteRead_ipuStartPending (s : State) (a : Addr) : (s.noteRead a).ipuStartPending = s.ipuStartPending := rfl
@[simp] theorem State.noteRead_ipuDonePending (s : State) (a : Addr) : (s.noteRead a).ipuDonePending = s.ipuDonePending := rfl
@[simp] theorem State.noteRead_mem (s : State) (a : Addr) : (s.noteRead a).mem = s.mem := rfl
@[simp] theorem State.noteRead_panel (s : State) (a : Addr) : (s.noteRead a).panel = s.panel := rfl
@[simp] theorem State.noteRead_instrPc (s : State) (a : Addr) : (s.noteRead a).instrPc = s.instrPc := rfl
@[simp] theorem State.noteRead_abandoned (s : State) (a : Addr) : (s.noteRead a).abandoned = s.abandoned := rfl
@[simp] theorem State.noteRead_pendingArith (s : State) (a : Addr) : (s.noteRead a).pendingArith = s.pendingArith := rfl
@[simp] theorem State.noteRead_pendingTimeout (s : State) (a : Addr) : (s.noteRead a).pendingTimeout = s.pendingTimeout := rfl
@[simp] theorem State.noteRead_pendingPower (s : State) (a : Addr) : (s.noteRead a).pendingPower = s.pendingPower := rfl
@[simp] theorem State.noteRead_noHalt (s : State) (a : Addr) : (s.noteRead a).noHalt = s.noHalt := rfl
@[simp] theorem State.noteRead_haltRequest (s : State) (a : Addr) : (s.noteRead a).haltRequest = s.haltRequest := rfl
@[simp] theorem State.noteRead_stepping (s : State) (a : Addr) : (s.noteRead a).stepping = s.stepping := rfl
@[simp] theorem State.noteRead_parityBad (s : State) (a : Addr) : (s.noteRead a).parityBad = s.parityBad := rfl
@[simp] theorem State.noteRead_inputs (s : State) (a : Addr) : (s.noteRead a).inputs = s.inputs := rfl
@[simp] theorem State.noteRead_bus (s : State) (a : Addr) : (s.noteRead a).bus = s.bus := rfl
@[simp] theorem State.noteRead_channelOut (s : State) (a : Addr) : (s.noteRead a).channelOut = s.channelOut := rfl
@[simp] theorem State.noteRead_freeIx (s : State) (a : Addr) : (s.noteRead a).freeIx = s.freeIx := rfl

@[simp] theorem State.noteWrite_cfg (s : State) (a : Addr) : (s.noteWrite a).cfg = s.cfg := rfl
@[simp] theorem State.noteWrite_regs (s : State) (a : Addr) : (s.noteWrite a).regs = s.regs := rfl
@[simp] theorem State.noteWrite_mode (s : State) (a : Addr) : (s.noteWrite a).mode = s.mode := rfl
@[simp] theorem State.noteWrite_priv (s : State) (a : Addr) : (s.noteWrite a).priv = s.priv := rfl
@[simp] theorem State.noteWrite_cc (s : State) (a : Addr) : (s.noteWrite a).cc = s.cc := rfl
@[simp] theorem State.noteWrite_ext (s : State) (a : Addr) : (s.noteWrite a).ext = s.ext := rfl
@[simp] theorem State.noteWrite_hist (s : State) (a : Addr) : (s.noteWrite a).hist = s.hist := rfl
@[simp] theorem State.noteWrite_aexp (s : State) (a : Addr) : (s.noteWrite a).aexp = s.aexp := rfl
@[simp] theorem State.noteWrite_pc (s : State) (a : Addr) : (s.noteWrite a).pc = s.pc := rfl
@[simp] theorem State.noteWrite_psd2 (s : State) (a : Addr) : (s.noteWrite a).psd2 = s.psd2 := rfl
@[simp] theorem State.noteWrite_blocked (s : State) (a : Addr) : (s.noteWrite a).blocked = s.blocked := rfl
@[simp] theorem State.noteWrite_blockCount (s : State) (a : Addr) : (s.noteWrite a).blockCount = s.blockCount := rfl
@[simp] theorem State.noteWrite_mapped (s : State) (a : Addr) : (s.noteWrite a).mapped = s.mapped := rfl
@[simp] theorem State.noteWrite_map (s : State) (a : Addr) : (s.noteWrite a).map = s.map := rfl
@[simp] theorem State.noteWrite_prot (s : State) (a : Addr) : (s.noteWrite a).prot = s.prot := rfl
@[simp] theorem State.noteWrite_spad (s : State) (a : Addr) : (s.noteWrite a).spad = s.spad := rfl
@[simp] theorem State.noteWrite_trapsEnabled (s : State) (a : Addr) : (s.noteWrite a).trapsEnabled = s.trapsEnabled := rfl
@[simp] theorem State.noteWrite_bmtoEnabled (s : State) (a : Addr) : (s.noteWrite a).bmtoEnabled = s.bmtoEnabled := rfl
@[simp] theorem State.noteWrite_csw (s : State) (a : Addr) : (s.noteWrite a).csw = s.csw := rfl
@[simp] theorem State.noteWrite_wcs (s : State) (a : Addr) : (s.noteWrite a).wcs = s.wcs := rfl
@[simp] theorem State.noteWrite_enabled (s : State) (a : Addr) : (s.noteWrite a).enabled = s.enabled := rfl
@[simp] theorem State.noteWrite_requesting (s : State) (a : Addr) : (s.noteWrite a).requesting = s.requesting := rfl
@[simp] theorem State.noteWrite_active (s : State) (a : Addr) : (s.noteWrite a).active = s.active := rfl
@[simp] theorem State.noteWrite_runState (s : State) (a : Addr) : (s.noteWrite a).runState = s.runState := rfl
@[simp] theorem State.noteWrite_execDepth (s : State) (a : Addr) : (s.noteWrite a).execDepth = s.execDepth := rfl
@[simp] theorem State.noteWrite_nonint (s : State) (a : Addr) : (s.noteWrite a).nonint = s.nonint := rfl
@[simp] theorem State.noteWrite_memLock (s : State) (a : Addr) : (s.noteWrite a).memLock = s.memLock := rfl
@[simp] theorem State.noteWrite_intervalTimer (s : State) (a : Addr) : (s.noteWrite a).intervalTimer = s.intervalTimer := rfl
@[simp] theorem State.noteWrite_wcsInterlock (s : State) (a : Addr) : (s.noteWrite a).wcsInterlock = s.wcsInterlock := rfl
@[simp] theorem State.noteWrite_ipuStartPending (s : State) (a : Addr) : (s.noteWrite a).ipuStartPending = s.ipuStartPending := rfl
@[simp] theorem State.noteWrite_ipuDonePending (s : State) (a : Addr) : (s.noteWrite a).ipuDonePending = s.ipuDonePending := rfl
@[simp] theorem State.noteWrite_mem (s : State) (a : Addr) : (s.noteWrite a).mem = s.mem := rfl
@[simp] theorem State.noteWrite_panel (s : State) (a : Addr) : (s.noteWrite a).panel = s.panel := rfl
@[simp] theorem State.noteWrite_instrPc (s : State) (a : Addr) : (s.noteWrite a).instrPc = s.instrPc := rfl
@[simp] theorem State.noteWrite_abandoned (s : State) (a : Addr) : (s.noteWrite a).abandoned = s.abandoned := rfl
@[simp] theorem State.noteWrite_pendingArith (s : State) (a : Addr) : (s.noteWrite a).pendingArith = s.pendingArith := rfl
@[simp] theorem State.noteWrite_pendingTimeout (s : State) (a : Addr) : (s.noteWrite a).pendingTimeout = s.pendingTimeout := rfl
@[simp] theorem State.noteWrite_pendingPower (s : State) (a : Addr) : (s.noteWrite a).pendingPower = s.pendingPower := rfl
@[simp] theorem State.noteWrite_noHalt (s : State) (a : Addr) : (s.noteWrite a).noHalt = s.noHalt := rfl
@[simp] theorem State.noteWrite_haltRequest (s : State) (a : Addr) : (s.noteWrite a).haltRequest = s.haltRequest := rfl
@[simp] theorem State.noteWrite_stepping (s : State) (a : Addr) : (s.noteWrite a).stepping = s.stepping := rfl
@[simp] theorem State.noteWrite_parityBad (s : State) (a : Addr) : (s.noteWrite a).parityBad = s.parityBad := rfl
@[simp] theorem State.noteWrite_inputs (s : State) (a : Addr) : (s.noteWrite a).inputs = s.inputs := rfl
@[simp] theorem State.noteWrite_bus (s : State) (a : Addr) : (s.noteWrite a).bus = s.bus := rfl
@[simp] theorem State.noteWrite_channelOut (s : State) (a : Addr) : (s.noteWrite a).channelOut = s.channelOut := rfl
@[simp] theorem State.noteWrite_freeIx (s : State) (a : Addr) : (s.noteWrite a).freeIx = s.freeIx := rfl

@[simp] theorem State.noteFetch_cfg (s : State) (a : Addr) : (s.noteFetch a).cfg = s.cfg := rfl
@[simp] theorem State.noteFetch_regs (s : State) (a : Addr) : (s.noteFetch a).regs = s.regs := rfl
@[simp] theorem State.noteFetch_mode (s : State) (a : Addr) : (s.noteFetch a).mode = s.mode := rfl
@[simp] theorem State.noteFetch_priv (s : State) (a : Addr) : (s.noteFetch a).priv = s.priv := rfl
@[simp] theorem State.noteFetch_cc (s : State) (a : Addr) : (s.noteFetch a).cc = s.cc := rfl
@[simp] theorem State.noteFetch_ext (s : State) (a : Addr) : (s.noteFetch a).ext = s.ext := rfl
@[simp] theorem State.noteFetch_hist (s : State) (a : Addr) : (s.noteFetch a).hist = s.hist := rfl
@[simp] theorem State.noteFetch_aexp (s : State) (a : Addr) : (s.noteFetch a).aexp = s.aexp := rfl
@[simp] theorem State.noteFetch_pc (s : State) (a : Addr) : (s.noteFetch a).pc = s.pc := rfl
@[simp] theorem State.noteFetch_psd2 (s : State) (a : Addr) : (s.noteFetch a).psd2 = s.psd2 := rfl
@[simp] theorem State.noteFetch_blocked (s : State) (a : Addr) : (s.noteFetch a).blocked = s.blocked := rfl
@[simp] theorem State.noteFetch_blockCount (s : State) (a : Addr) : (s.noteFetch a).blockCount = s.blockCount := rfl
@[simp] theorem State.noteFetch_mapped (s : State) (a : Addr) : (s.noteFetch a).mapped = s.mapped := rfl
@[simp] theorem State.noteFetch_map (s : State) (a : Addr) : (s.noteFetch a).map = s.map := rfl
@[simp] theorem State.noteFetch_prot (s : State) (a : Addr) : (s.noteFetch a).prot = s.prot := rfl
@[simp] theorem State.noteFetch_spad (s : State) (a : Addr) : (s.noteFetch a).spad = s.spad := rfl
@[simp] theorem State.noteFetch_trapsEnabled (s : State) (a : Addr) : (s.noteFetch a).trapsEnabled = s.trapsEnabled := rfl
@[simp] theorem State.noteFetch_bmtoEnabled (s : State) (a : Addr) : (s.noteFetch a).bmtoEnabled = s.bmtoEnabled := rfl
@[simp] theorem State.noteFetch_csw (s : State) (a : Addr) : (s.noteFetch a).csw = s.csw := rfl
@[simp] theorem State.noteFetch_wcs (s : State) (a : Addr) : (s.noteFetch a).wcs = s.wcs := rfl
@[simp] theorem State.noteFetch_enabled (s : State) (a : Addr) : (s.noteFetch a).enabled = s.enabled := rfl
@[simp] theorem State.noteFetch_requesting (s : State) (a : Addr) : (s.noteFetch a).requesting = s.requesting := rfl
@[simp] theorem State.noteFetch_active (s : State) (a : Addr) : (s.noteFetch a).active = s.active := rfl
@[simp] theorem State.noteFetch_runState (s : State) (a : Addr) : (s.noteFetch a).runState = s.runState := rfl
@[simp] theorem State.noteFetch_execDepth (s : State) (a : Addr) : (s.noteFetch a).execDepth = s.execDepth := rfl
@[simp] theorem State.noteFetch_nonint (s : State) (a : Addr) : (s.noteFetch a).nonint = s.nonint := rfl
@[simp] theorem State.noteFetch_memLock (s : State) (a : Addr) : (s.noteFetch a).memLock = s.memLock := rfl
@[simp] theorem State.noteFetch_intervalTimer (s : State) (a : Addr) : (s.noteFetch a).intervalTimer = s.intervalTimer := rfl
@[simp] theorem State.noteFetch_wcsInterlock (s : State) (a : Addr) : (s.noteFetch a).wcsInterlock = s.wcsInterlock := rfl
@[simp] theorem State.noteFetch_ipuStartPending (s : State) (a : Addr) : (s.noteFetch a).ipuStartPending = s.ipuStartPending := rfl
@[simp] theorem State.noteFetch_ipuDonePending (s : State) (a : Addr) : (s.noteFetch a).ipuDonePending = s.ipuDonePending := rfl
@[simp] theorem State.noteFetch_mem (s : State) (a : Addr) : (s.noteFetch a).mem = s.mem := rfl
@[simp] theorem State.noteFetch_panel (s : State) (a : Addr) : (s.noteFetch a).panel = s.panel := rfl
@[simp] theorem State.noteFetch_instrPc (s : State) (a : Addr) : (s.noteFetch a).instrPc = s.instrPc := rfl
@[simp] theorem State.noteFetch_abandoned (s : State) (a : Addr) : (s.noteFetch a).abandoned = s.abandoned := rfl
@[simp] theorem State.noteFetch_pendingArith (s : State) (a : Addr) : (s.noteFetch a).pendingArith = s.pendingArith := rfl
@[simp] theorem State.noteFetch_pendingTimeout (s : State) (a : Addr) : (s.noteFetch a).pendingTimeout = s.pendingTimeout := rfl
@[simp] theorem State.noteFetch_pendingPower (s : State) (a : Addr) : (s.noteFetch a).pendingPower = s.pendingPower := rfl
@[simp] theorem State.noteFetch_noHalt (s : State) (a : Addr) : (s.noteFetch a).noHalt = s.noHalt := rfl
@[simp] theorem State.noteFetch_haltRequest (s : State) (a : Addr) : (s.noteFetch a).haltRequest = s.haltRequest := rfl
@[simp] theorem State.noteFetch_stepping (s : State) (a : Addr) : (s.noteFetch a).stepping = s.stepping := rfl
@[simp] theorem State.noteFetch_parityBad (s : State) (a : Addr) : (s.noteFetch a).parityBad = s.parityBad := rfl
@[simp] theorem State.noteFetch_inputs (s : State) (a : Addr) : (s.noteFetch a).inputs = s.inputs := rfl
@[simp] theorem State.noteFetch_bus (s : State) (a : Addr) : (s.noteFetch a).bus = s.bus := rfl
@[simp] theorem State.noteFetch_channelOut (s : State) (a : Addr) : (s.noteFetch a).channelOut = s.channelOut := rfl
@[simp] theorem State.noteFetch_freeIx (s : State) (a : Addr) : (s.noteFetch a).freeIx = s.freeIx := rfl

@[simp] theorem State.orStatus_cfg (s : State) (b : Word) : (s.orStatus b).cfg = s.cfg := rfl
@[simp] theorem State.orStatus_regs (s : State) (b : Word) : (s.orStatus b).regs = s.regs := rfl
@[simp] theorem State.orStatus_mode (s : State) (b : Word) : (s.orStatus b).mode = s.mode := rfl
@[simp] theorem State.orStatus_priv (s : State) (b : Word) : (s.orStatus b).priv = s.priv := rfl
@[simp] theorem State.orStatus_cc (s : State) (b : Word) : (s.orStatus b).cc = s.cc := rfl
@[simp] theorem State.orStatus_ext (s : State) (b : Word) : (s.orStatus b).ext = s.ext := rfl
@[simp] theorem State.orStatus_hist (s : State) (b : Word) : (s.orStatus b).hist = s.hist := rfl
@[simp] theorem State.orStatus_aexp (s : State) (b : Word) : (s.orStatus b).aexp = s.aexp := rfl
@[simp] theorem State.orStatus_pc (s : State) (b : Word) : (s.orStatus b).pc = s.pc := rfl
@[simp] theorem State.orStatus_psd2 (s : State) (b : Word) : (s.orStatus b).psd2 = s.psd2 := rfl
@[simp] theorem State.orStatus_blocked (s : State) (b : Word) : (s.orStatus b).blocked = s.blocked := rfl
@[simp] theorem State.orStatus_blockCount (s : State) (b : Word) : (s.orStatus b).blockCount = s.blockCount := rfl
@[simp] theorem State.orStatus_mapped (s : State) (b : Word) : (s.orStatus b).mapped = s.mapped := rfl
@[simp] theorem State.orStatus_map (s : State) (b : Word) : (s.orStatus b).map = s.map := rfl
@[simp] theorem State.orStatus_prot (s : State) (b : Word) : (s.orStatus b).prot = s.prot := rfl
@[simp] theorem State.orStatus_trapsEnabled (s : State) (b : Word) : (s.orStatus b).trapsEnabled = s.trapsEnabled := rfl
@[simp] theorem State.orStatus_bmtoEnabled (s : State) (b : Word) : (s.orStatus b).bmtoEnabled = s.bmtoEnabled := rfl
@[simp] theorem State.orStatus_csw (s : State) (b : Word) : (s.orStatus b).csw = s.csw := rfl
@[simp] theorem State.orStatus_wcs (s : State) (b : Word) : (s.orStatus b).wcs = s.wcs := rfl
@[simp] theorem State.orStatus_enabled (s : State) (b : Word) : (s.orStatus b).enabled = s.enabled := rfl
@[simp] theorem State.orStatus_requesting (s : State) (b : Word) : (s.orStatus b).requesting = s.requesting := rfl
@[simp] theorem State.orStatus_active (s : State) (b : Word) : (s.orStatus b).active = s.active := rfl
@[simp] theorem State.orStatus_runState (s : State) (b : Word) : (s.orStatus b).runState = s.runState := rfl
@[simp] theorem State.orStatus_execDepth (s : State) (b : Word) : (s.orStatus b).execDepth = s.execDepth := rfl
@[simp] theorem State.orStatus_nonint (s : State) (b : Word) : (s.orStatus b).nonint = s.nonint := rfl
@[simp] theorem State.orStatus_memLock (s : State) (b : Word) : (s.orStatus b).memLock = s.memLock := rfl
@[simp] theorem State.orStatus_intervalTimer (s : State) (b : Word) : (s.orStatus b).intervalTimer = s.intervalTimer := rfl
@[simp] theorem State.orStatus_wcsInterlock (s : State) (b : Word) : (s.orStatus b).wcsInterlock = s.wcsInterlock := rfl
@[simp] theorem State.orStatus_ipuStartPending (s : State) (b : Word) : (s.orStatus b).ipuStartPending = s.ipuStartPending := rfl
@[simp] theorem State.orStatus_ipuDonePending (s : State) (b : Word) : (s.orStatus b).ipuDonePending = s.ipuDonePending := rfl
@[simp] theorem State.orStatus_mem (s : State) (b : Word) : (s.orStatus b).mem = s.mem := rfl
@[simp] theorem State.orStatus_panel (s : State) (b : Word) : (s.orStatus b).panel = s.panel := rfl
@[simp] theorem State.orStatus_instrPc (s : State) (b : Word) : (s.orStatus b).instrPc = s.instrPc := rfl
@[simp] theorem State.orStatus_abandoned (s : State) (b : Word) : (s.orStatus b).abandoned = s.abandoned := rfl
@[simp] theorem State.orStatus_pendingArith (s : State) (b : Word) : (s.orStatus b).pendingArith = s.pendingArith := rfl
@[simp] theorem State.orStatus_pendingTimeout (s : State) (b : Word) : (s.orStatus b).pendingTimeout = s.pendingTimeout := rfl
@[simp] theorem State.orStatus_pendingPower (s : State) (b : Word) : (s.orStatus b).pendingPower = s.pendingPower := rfl
@[simp] theorem State.orStatus_noHalt (s : State) (b : Word) : (s.orStatus b).noHalt = s.noHalt := rfl
@[simp] theorem State.orStatus_haltRequest (s : State) (b : Word) : (s.orStatus b).haltRequest = s.haltRequest := rfl
@[simp] theorem State.orStatus_stepping (s : State) (b : Word) : (s.orStatus b).stepping = s.stepping := rfl
@[simp] theorem State.orStatus_stopHit (s : State) (b : Word) : (s.orStatus b).stopHit = s.stopHit := rfl
@[simp] theorem State.orStatus_parityBad (s : State) (b : Word) : (s.orStatus b).parityBad = s.parityBad := rfl
@[simp] theorem State.orStatus_inputs (s : State) (b : Word) : (s.orStatus b).inputs = s.inputs := rfl
@[simp] theorem State.orStatus_bus (s : State) (b : Word) : (s.orStatus b).bus = s.bus := rfl
@[simp] theorem State.orStatus_channelOut (s : State) (b : Word) : (s.orStatus b).channelOut = s.channelOut := rfl
@[simp] theorem State.orStatus_freeIx (s : State) (b : Word) : (s.orStatus b).freeIx = s.freeIx := rfl

@[simp] theorem State.clearStatus_cfg (s : State) : (s.clearStatus).cfg = s.cfg := rfl
@[simp] theorem State.clearStatus_regs (s : State) : (s.clearStatus).regs = s.regs := rfl
@[simp] theorem State.clearStatus_mode (s : State) : (s.clearStatus).mode = s.mode := rfl
@[simp] theorem State.clearStatus_priv (s : State) : (s.clearStatus).priv = s.priv := rfl
@[simp] theorem State.clearStatus_cc (s : State) : (s.clearStatus).cc = s.cc := rfl
@[simp] theorem State.clearStatus_ext (s : State) : (s.clearStatus).ext = s.ext := rfl
@[simp] theorem State.clearStatus_hist (s : State) : (s.clearStatus).hist = s.hist := rfl
@[simp] theorem State.clearStatus_aexp (s : State) : (s.clearStatus).aexp = s.aexp := rfl
@[simp] theorem State.clearStatus_pc (s : State) : (s.clearStatus).pc = s.pc := rfl
@[simp] theorem State.clearStatus_psd2 (s : State) : (s.clearStatus).psd2 = s.psd2 := rfl
@[simp] theorem State.clearStatus_blocked (s : State) : (s.clearStatus).blocked = s.blocked := rfl
@[simp] theorem State.clearStatus_blockCount (s : State) : (s.clearStatus).blockCount = s.blockCount := rfl
@[simp] theorem State.clearStatus_mapped (s : State) : (s.clearStatus).mapped = s.mapped := rfl
@[simp] theorem State.clearStatus_map (s : State) : (s.clearStatus).map = s.map := rfl
@[simp] theorem State.clearStatus_prot (s : State) : (s.clearStatus).prot = s.prot := rfl
@[simp] theorem State.clearStatus_trapsEnabled (s : State) : (s.clearStatus).trapsEnabled = s.trapsEnabled := rfl
@[simp] theorem State.clearStatus_bmtoEnabled (s : State) : (s.clearStatus).bmtoEnabled = s.bmtoEnabled := rfl
@[simp] theorem State.clearStatus_csw (s : State) : (s.clearStatus).csw = s.csw := rfl
@[simp] theorem State.clearStatus_wcs (s : State) : (s.clearStatus).wcs = s.wcs := rfl
@[simp] theorem State.clearStatus_enabled (s : State) : (s.clearStatus).enabled = s.enabled := rfl
@[simp] theorem State.clearStatus_requesting (s : State) : (s.clearStatus).requesting = s.requesting := rfl
@[simp] theorem State.clearStatus_active (s : State) : (s.clearStatus).active = s.active := rfl
@[simp] theorem State.clearStatus_runState (s : State) : (s.clearStatus).runState = s.runState := rfl
@[simp] theorem State.clearStatus_execDepth (s : State) : (s.clearStatus).execDepth = s.execDepth := rfl
@[simp] theorem State.clearStatus_nonint (s : State) : (s.clearStatus).nonint = s.nonint := rfl
@[simp] theorem State.clearStatus_memLock (s : State) : (s.clearStatus).memLock = s.memLock := rfl
@[simp] theorem State.clearStatus_intervalTimer (s : State) : (s.clearStatus).intervalTimer = s.intervalTimer := rfl
@[simp] theorem State.clearStatus_wcsInterlock (s : State) : (s.clearStatus).wcsInterlock = s.wcsInterlock := rfl
@[simp] theorem State.clearStatus_ipuStartPending (s : State) : (s.clearStatus).ipuStartPending = s.ipuStartPending := rfl
@[simp] theorem State.clearStatus_ipuDonePending (s : State) : (s.clearStatus).ipuDonePending = s.ipuDonePending := rfl
@[simp] theorem State.clearStatus_mem (s : State) : (s.clearStatus).mem = s.mem := rfl
@[simp] theorem State.clearStatus_panel (s : State) : (s.clearStatus).panel = s.panel := rfl
@[simp] theorem State.clearStatus_instrPc (s : State) : (s.clearStatus).instrPc = s.instrPc := rfl
@[simp] theorem State.clearStatus_abandoned (s : State) : (s.clearStatus).abandoned = s.abandoned := rfl
@[simp] theorem State.clearStatus_pendingArith (s : State) : (s.clearStatus).pendingArith = s.pendingArith := rfl
@[simp] theorem State.clearStatus_pendingTimeout (s : State) : (s.clearStatus).pendingTimeout = s.pendingTimeout := rfl
@[simp] theorem State.clearStatus_pendingPower (s : State) : (s.clearStatus).pendingPower = s.pendingPower := rfl
@[simp] theorem State.clearStatus_noHalt (s : State) : (s.clearStatus).noHalt = s.noHalt := rfl
@[simp] theorem State.clearStatus_haltRequest (s : State) : (s.clearStatus).haltRequest = s.haltRequest := rfl
@[simp] theorem State.clearStatus_stepping (s : State) : (s.clearStatus).stepping = s.stepping := rfl
@[simp] theorem State.clearStatus_stopHit (s : State) : (s.clearStatus).stopHit = s.stopHit := rfl
@[simp] theorem State.clearStatus_parityBad (s : State) : (s.clearStatus).parityBad = s.parityBad := rfl
@[simp] theorem State.clearStatus_inputs (s : State) : (s.clearStatus).inputs = s.inputs := rfl
@[simp] theorem State.clearStatus_bus (s : State) : (s.clearStatus).bus = s.bus := rfl
@[simp] theorem State.clearStatus_channelOut (s : State) : (s.clearStatus).channelOut = s.channelOut := rfl
@[simp] theorem State.clearStatus_freeIx (s : State) : (s.clearStatus).freeIx = s.freeIx := rfl

@[simp] theorem State.arithException_cfg (s : State) (e : Bool) : (s.arithException e).cfg = s.cfg := rfl
@[simp] theorem State.arithException_regs (s : State) (e : Bool) : (s.arithException e).regs = s.regs := rfl
@[simp] theorem State.arithException_mode (s : State) (e : Bool) : (s.arithException e).mode = s.mode := rfl
@[simp] theorem State.arithException_priv (s : State) (e : Bool) : (s.arithException e).priv = s.priv := rfl
@[simp] theorem State.arithException_cc (s : State) (e : Bool) : (s.arithException e).cc = s.cc := rfl
@[simp] theorem State.arithException_ext (s : State) (e : Bool) : (s.arithException e).ext = s.ext := rfl
@[simp] theorem State.arithException_hist (s : State) (e : Bool) : (s.arithException e).hist = s.hist := rfl
@[simp] theorem State.arithException_aexp (s : State) (e : Bool) : (s.arithException e).aexp = s.aexp := rfl
@[simp] theorem State.arithException_pc (s : State) (e : Bool) : (s.arithException e).pc = s.pc := rfl
@[simp] theorem State.arithException_psd2 (s : State) (e : Bool) : (s.arithException e).psd2 = s.psd2 := rfl
@[simp] theorem State.arithException_blocked (s : State) (e : Bool) : (s.arithException e).blocked = s.blocked := rfl
@[simp] theorem State.arithException_blockCount (s : State) (e : Bool) : (s.arithException e).blockCount = s.blockCount := rfl
@[simp] theorem State.arithException_mapped (s : State) (e : Bool) : (s.arithException e).mapped = s.mapped := rfl
@[simp] theorem State.arithException_map (s : State) (e : Bool) : (s.arithException e).map = s.map := rfl
@[simp] theorem State.arithException_prot (s : State) (e : Bool) : (s.arithException e).prot = s.prot := rfl
@[simp] theorem State.arithException_trapsEnabled (s : State) (e : Bool) : (s.arithException e).trapsEnabled = s.trapsEnabled := rfl
@[simp] theorem State.arithException_bmtoEnabled (s : State) (e : Bool) : (s.arithException e).bmtoEnabled = s.bmtoEnabled := rfl
@[simp] theorem State.arithException_csw (s : State) (e : Bool) : (s.arithException e).csw = s.csw := rfl
@[simp] theorem State.arithException_wcs (s : State) (e : Bool) : (s.arithException e).wcs = s.wcs := rfl
@[simp] theorem State.arithException_enabled (s : State) (e : Bool) : (s.arithException e).enabled = s.enabled := rfl
@[simp] theorem State.arithException_requesting (s : State) (e : Bool) : (s.arithException e).requesting = s.requesting := rfl
@[simp] theorem State.arithException_active (s : State) (e : Bool) : (s.arithException e).active = s.active := rfl
@[simp] theorem State.arithException_runState (s : State) (e : Bool) : (s.arithException e).runState = s.runState := rfl
@[simp] theorem State.arithException_execDepth (s : State) (e : Bool) : (s.arithException e).execDepth = s.execDepth := rfl
@[simp] theorem State.arithException_nonint (s : State) (e : Bool) : (s.arithException e).nonint = s.nonint := rfl
@[simp] theorem State.arithException_memLock (s : State) (e : Bool) : (s.arithException e).memLock = s.memLock := rfl
@[simp] theorem State.arithException_intervalTimer (s : State) (e : Bool) : (s.arithException e).intervalTimer = s.intervalTimer := rfl
@[simp] theorem State.arithException_wcsInterlock (s : State) (e : Bool) : (s.arithException e).wcsInterlock = s.wcsInterlock := rfl
@[simp] theorem State.arithException_ipuStartPending (s : State) (e : Bool) : (s.arithException e).ipuStartPending = s.ipuStartPending := rfl
@[simp] theorem State.arithException_ipuDonePending (s : State) (e : Bool) : (s.arithException e).ipuDonePending = s.ipuDonePending := rfl
@[simp] theorem State.arithException_mem (s : State) (e : Bool) : (s.arithException e).mem = s.mem := rfl
@[simp] theorem State.arithException_panel (s : State) (e : Bool) : (s.arithException e).panel = s.panel := rfl
@[simp] theorem State.arithException_instrPc (s : State) (e : Bool) : (s.arithException e).instrPc = s.instrPc := rfl
@[simp] theorem State.arithException_abandoned (s : State) (e : Bool) : (s.arithException e).abandoned = s.abandoned := rfl
@[simp] theorem State.arithException_pendingTimeout (s : State) (e : Bool) : (s.arithException e).pendingTimeout = s.pendingTimeout := rfl
@[simp] theorem State.arithException_pendingPower (s : State) (e : Bool) : (s.arithException e).pendingPower = s.pendingPower := rfl
@[simp] theorem State.arithException_noHalt (s : State) (e : Bool) : (s.arithException e).noHalt = s.noHalt := rfl
@[simp] theorem State.arithException_haltRequest (s : State) (e : Bool) : (s.arithException e).haltRequest = s.haltRequest := rfl
@[simp] theorem State.arithException_stepping (s : State) (e : Bool) : (s.arithException e).stepping = s.stepping := rfl
@[simp] theorem State.arithException_stopHit (s : State) (e : Bool) : (s.arithException e).stopHit = s.stopHit := rfl
@[simp] theorem State.arithException_parityBad (s : State) (e : Bool) : (s.arithException e).parityBad = s.parityBad := rfl
@[simp] theorem State.arithException_inputs (s : State) (e : Bool) : (s.arithException e).inputs = s.inputs := rfl
@[simp] theorem State.arithException_bus (s : State) (e : Bool) : (s.arithException e).bus = s.bus := rfl
@[simp] theorem State.arithException_channelOut (s : State) (e : Bool) : (s.arithException e).channelOut = s.channelOut := rfl
@[simp] theorem State.arithException_freeIx (s : State) (e : Bool) : (s.arithException e).freeIx = s.freeIx := rfl

@[simp] theorem State.setBlocked_cfg (s : State) (b : Bool) : (s.setBlocked b).cfg = s.cfg := rfl
@[simp] theorem State.setBlocked_regs (s : State) (b : Bool) : (s.setBlocked b).regs = s.regs := rfl
@[simp] theorem State.setBlocked_mode (s : State) (b : Bool) : (s.setBlocked b).mode = s.mode := rfl
@[simp] theorem State.setBlocked_priv (s : State) (b : Bool) : (s.setBlocked b).priv = s.priv := rfl
@[simp] theorem State.setBlocked_cc (s : State) (b : Bool) : (s.setBlocked b).cc = s.cc := rfl
@[simp] theorem State.setBlocked_ext (s : State) (b : Bool) : (s.setBlocked b).ext = s.ext := rfl
@[simp] theorem State.setBlocked_hist (s : State) (b : Bool) : (s.setBlocked b).hist = s.hist := rfl
@[simp] theorem State.setBlocked_aexp (s : State) (b : Bool) : (s.setBlocked b).aexp = s.aexp := rfl
@[simp] theorem State.setBlocked_pc (s : State) (b : Bool) : (s.setBlocked b).pc = s.pc := rfl
@[simp] theorem State.setBlocked_psd2 (s : State) (b : Bool) : (s.setBlocked b).psd2 = s.psd2 := rfl
@[simp] theorem State.setBlocked_mapped (s : State) (b : Bool) : (s.setBlocked b).mapped = s.mapped := rfl
@[simp] theorem State.setBlocked_map (s : State) (b : Bool) : (s.setBlocked b).map = s.map := rfl
@[simp] theorem State.setBlocked_prot (s : State) (b : Bool) : (s.setBlocked b).prot = s.prot := rfl
@[simp] theorem State.setBlocked_spad (s : State) (b : Bool) : (s.setBlocked b).spad = s.spad := rfl
@[simp] theorem State.setBlocked_trapsEnabled (s : State) (b : Bool) : (s.setBlocked b).trapsEnabled = s.trapsEnabled := rfl
@[simp] theorem State.setBlocked_bmtoEnabled (s : State) (b : Bool) : (s.setBlocked b).bmtoEnabled = s.bmtoEnabled := rfl
@[simp] theorem State.setBlocked_csw (s : State) (b : Bool) : (s.setBlocked b).csw = s.csw := rfl
@[simp] theorem State.setBlocked_wcs (s : State) (b : Bool) : (s.setBlocked b).wcs = s.wcs := rfl
@[simp] theorem State.setBlocked_enabled (s : State) (b : Bool) : (s.setBlocked b).enabled = s.enabled := rfl
@[simp] theorem State.setBlocked_requesting (s : State) (b : Bool) : (s.setBlocked b).requesting = s.requesting := rfl
@[simp] theorem State.setBlocked_active (s : State) (b : Bool) : (s.setBlocked b).active = s.active := rfl
@[simp] theorem State.setBlocked_runState (s : State) (b : Bool) : (s.setBlocked b).runState = s.runState := rfl
@[simp] theorem State.setBlocked_execDepth (s : State) (b : Bool) : (s.setBlocked b).execDepth = s.execDepth := rfl
@[simp] theorem State.setBlocked_nonint (s : State) (b : Bool) : (s.setBlocked b).nonint = s.nonint := rfl
@[simp] theorem State.setBlocked_memLock (s : State) (b : Bool) : (s.setBlocked b).memLock = s.memLock := rfl
@[simp] theorem State.setBlocked_intervalTimer (s : State) (b : Bool) : (s.setBlocked b).intervalTimer = s.intervalTimer := rfl
@[simp] theorem State.setBlocked_wcsInterlock (s : State) (b : Bool) : (s.setBlocked b).wcsInterlock = s.wcsInterlock := rfl
@[simp] theorem State.setBlocked_ipuStartPending (s : State) (b : Bool) : (s.setBlocked b).ipuStartPending = s.ipuStartPending := rfl
@[simp] theorem State.setBlocked_ipuDonePending (s : State) (b : Bool) : (s.setBlocked b).ipuDonePending = s.ipuDonePending := rfl
@[simp] theorem State.setBlocked_mem (s : State) (b : Bool) : (s.setBlocked b).mem = s.mem := rfl
@[simp] theorem State.setBlocked_panel (s : State) (b : Bool) : (s.setBlocked b).panel = s.panel := rfl
@[simp] theorem State.setBlocked_instrPc (s : State) (b : Bool) : (s.setBlocked b).instrPc = s.instrPc := rfl
@[simp] theorem State.setBlocked_abandoned (s : State) (b : Bool) : (s.setBlocked b).abandoned = s.abandoned := rfl
@[simp] theorem State.setBlocked_pendingArith (s : State) (b : Bool) : (s.setBlocked b).pendingArith = s.pendingArith := rfl
@[simp] theorem State.setBlocked_pendingTimeout (s : State) (b : Bool) : (s.setBlocked b).pendingTimeout = s.pendingTimeout := rfl
@[simp] theorem State.setBlocked_pendingPower (s : State) (b : Bool) : (s.setBlocked b).pendingPower = s.pendingPower := rfl
@[simp] theorem State.setBlocked_noHalt (s : State) (b : Bool) : (s.setBlocked b).noHalt = s.noHalt := rfl
@[simp] theorem State.setBlocked_haltRequest (s : State) (b : Bool) : (s.setBlocked b).haltRequest = s.haltRequest := rfl
@[simp] theorem State.setBlocked_stepping (s : State) (b : Bool) : (s.setBlocked b).stepping = s.stepping := rfl
@[simp] theorem State.setBlocked_stopHit (s : State) (b : Bool) : (s.setBlocked b).stopHit = s.stopHit := rfl
@[simp] theorem State.setBlocked_parityBad (s : State) (b : Bool) : (s.setBlocked b).parityBad = s.parityBad := rfl
@[simp] theorem State.setBlocked_inputs (s : State) (b : Bool) : (s.setBlocked b).inputs = s.inputs := rfl
@[simp] theorem State.setBlocked_bus (s : State) (b : Bool) : (s.setBlocked b).bus = s.bus := rfl
@[simp] theorem State.setBlocked_channelOut (s : State) (b : Bool) : (s.setBlocked b).channelOut = s.channelOut := rfl
@[simp] theorem State.setBlocked_freeIx (s : State) (b : Bool) : (s.setBlocked b).freeIx = s.freeIx := rfl

@[simp] theorem State.setPsw_cfg (s : State) (n : Word) : (s.setPsw n).cfg = s.cfg := rfl
@[simp] theorem State.setPsw_regs (s : State) (n : Word) : (s.setPsw n).regs = s.regs := rfl
@[simp] theorem State.setPsw_mode (s : State) (n : Word) : (s.setPsw n).mode = s.mode := rfl
@[simp] theorem State.setPsw_aexp (s : State) (n : Word) : (s.setPsw n).aexp = s.aexp := rfl
@[simp] theorem State.setPsw_psd2 (s : State) (n : Word) : (s.setPsw n).psd2 = s.psd2 := rfl
@[simp] theorem State.setPsw_blocked (s : State) (n : Word) : (s.setPsw n).blocked = s.blocked := rfl
@[simp] theorem State.setPsw_blockCount (s : State) (n : Word) : (s.setPsw n).blockCount = s.blockCount := rfl
@[simp] theorem State.setPsw_mapped (s : State) (n : Word) : (s.setPsw n).mapped = s.mapped := rfl
@[simp] theorem State.setPsw_map (s : State) (n : Word) : (s.setPsw n).map = s.map := rfl
@[simp] theorem State.setPsw_prot (s : State) (n : Word) : (s.setPsw n).prot = s.prot := rfl
@[simp] theorem State.setPsw_spad (s : State) (n : Word) : (s.setPsw n).spad = s.spad := rfl
@[simp] theorem State.setPsw_trapsEnabled (s : State) (n : Word) : (s.setPsw n).trapsEnabled = s.trapsEnabled := rfl
@[simp] theorem State.setPsw_bmtoEnabled (s : State) (n : Word) : (s.setPsw n).bmtoEnabled = s.bmtoEnabled := rfl
@[simp] theorem State.setPsw_csw (s : State) (n : Word) : (s.setPsw n).csw = s.csw := rfl
@[simp] theorem State.setPsw_wcs (s : State) (n : Word) : (s.setPsw n).wcs = s.wcs := rfl
@[simp] theorem State.setPsw_enabled (s : State) (n : Word) : (s.setPsw n).enabled = s.enabled := rfl
@[simp] theorem State.setPsw_requesting (s : State) (n : Word) : (s.setPsw n).requesting = s.requesting := rfl
@[simp] theorem State.setPsw_active (s : State) (n : Word) : (s.setPsw n).active = s.active := rfl
@[simp] theorem State.setPsw_runState (s : State) (n : Word) : (s.setPsw n).runState = s.runState := rfl
@[simp] theorem State.setPsw_execDepth (s : State) (n : Word) : (s.setPsw n).execDepth = s.execDepth := rfl
@[simp] theorem State.setPsw_nonint (s : State) (n : Word) : (s.setPsw n).nonint = s.nonint := rfl
@[simp] theorem State.setPsw_memLock (s : State) (n : Word) : (s.setPsw n).memLock = s.memLock := rfl
@[simp] theorem State.setPsw_intervalTimer (s : State) (n : Word) : (s.setPsw n).intervalTimer = s.intervalTimer := rfl
@[simp] theorem State.setPsw_wcsInterlock (s : State) (n : Word) : (s.setPsw n).wcsInterlock = s.wcsInterlock := rfl
@[simp] theorem State.setPsw_ipuStartPending (s : State) (n : Word) : (s.setPsw n).ipuStartPending = s.ipuStartPending := rfl
@[simp] theorem State.setPsw_ipuDonePending (s : State) (n : Word) : (s.setPsw n).ipuDonePending = s.ipuDonePending := rfl
@[simp] theorem State.setPsw_mem (s : State) (n : Word) : (s.setPsw n).mem = s.mem := rfl
@[simp] theorem State.setPsw_panel (s : State) (n : Word) : (s.setPsw n).panel = s.panel := rfl
@[simp] theorem State.setPsw_instrPc (s : State) (n : Word) : (s.setPsw n).instrPc = s.instrPc := rfl
@[simp] theorem State.setPsw_abandoned (s : State) (n : Word) : (s.setPsw n).abandoned = s.abandoned := rfl
@[simp] theorem State.setPsw_pendingArith (s : State) (n : Word) : (s.setPsw n).pendingArith = s.pendingArith := rfl
@[simp] theorem State.setPsw_pendingTimeout (s : State) (n : Word) : (s.setPsw n).pendingTimeout = s.pendingTimeout := rfl
@[simp] theorem State.setPsw_pendingPower (s : State) (n : Word) : (s.setPsw n).pendingPower = s.pendingPower := rfl
@[simp] theorem State.setPsw_noHalt (s : State) (n : Word) : (s.setPsw n).noHalt = s.noHalt := rfl
@[simp] theorem State.setPsw_haltRequest (s : State) (n : Word) : (s.setPsw n).haltRequest = s.haltRequest := rfl
@[simp] theorem State.setPsw_stepping (s : State) (n : Word) : (s.setPsw n).stepping = s.stepping := rfl
@[simp] theorem State.setPsw_stopHit (s : State) (n : Word) : (s.setPsw n).stopHit = s.stopHit := rfl
@[simp] theorem State.setPsw_parityBad (s : State) (n : Word) : (s.setPsw n).parityBad = s.parityBad := rfl
@[simp] theorem State.setPsw_inputs (s : State) (n : Word) : (s.setPsw n).inputs = s.inputs := rfl
@[simp] theorem State.setPsw_bus (s : State) (n : Word) : (s.setPsw n).bus = s.bus := rfl
@[simp] theorem State.setPsw_channelOut (s : State) (n : Word) : (s.setPsw n).channelOut = s.channelOut := rfl
@[simp] theorem State.setPsw_freeIx (s : State) (n : Word) : (s.setPsw n).freeIx = s.freeIx := rfl

@[simp] theorem State.setPsd_cfg (s : State) (m n : Word) : (s.setPsd m n).cfg = s.cfg := rfl
@[simp] theorem State.setPsd_regs (s : State) (m n : Word) : (s.setPsd m n).regs = s.regs := rfl
@[simp] theorem State.setPsd_mode (s : State) (m n : Word) : (s.setPsd m n).mode = s.mode := rfl
@[simp] theorem State.setPsd_map (s : State) (m n : Word) : (s.setPsd m n).map = s.map := rfl
@[simp] theorem State.setPsd_prot (s : State) (m n : Word) : (s.setPsd m n).prot = s.prot := rfl
@[simp] theorem State.setPsd_spad (s : State) (m n : Word) : (s.setPsd m n).spad = s.spad := rfl
@[simp] theorem State.setPsd_trapsEnabled (s : State) (m n : Word) : (s.setPsd m n).trapsEnabled = s.trapsEnabled := rfl
@[simp] theorem State.setPsd_bmtoEnabled (s : State) (m n : Word) : (s.setPsd m n).bmtoEnabled = s.bmtoEnabled := rfl
@[simp] theorem State.setPsd_csw (s : State) (m n : Word) : (s.setPsd m n).csw = s.csw := rfl
@[simp] theorem State.setPsd_wcs (s : State) (m n : Word) : (s.setPsd m n).wcs = s.wcs := rfl
@[simp] theorem State.setPsd_enabled (s : State) (m n : Word) : (s.setPsd m n).enabled = s.enabled := rfl
@[simp] theorem State.setPsd_requesting (s : State) (m n : Word) : (s.setPsd m n).requesting = s.requesting := rfl
@[simp] theorem State.setPsd_active (s : State) (m n : Word) : (s.setPsd m n).active = s.active := rfl
@[simp] theorem State.setPsd_runState (s : State) (m n : Word) : (s.setPsd m n).runState = s.runState := rfl
@[simp] theorem State.setPsd_execDepth (s : State) (m n : Word) : (s.setPsd m n).execDepth = s.execDepth := rfl
@[simp] theorem State.setPsd_nonint (s : State) (m n : Word) : (s.setPsd m n).nonint = s.nonint := rfl
@[simp] theorem State.setPsd_memLock (s : State) (m n : Word) : (s.setPsd m n).memLock = s.memLock := rfl
@[simp] theorem State.setPsd_intervalTimer (s : State) (m n : Word) : (s.setPsd m n).intervalTimer = s.intervalTimer := rfl
@[simp] theorem State.setPsd_wcsInterlock (s : State) (m n : Word) : (s.setPsd m n).wcsInterlock = s.wcsInterlock := rfl
@[simp] theorem State.setPsd_ipuStartPending (s : State) (m n : Word) : (s.setPsd m n).ipuStartPending = s.ipuStartPending := rfl
@[simp] theorem State.setPsd_ipuDonePending (s : State) (m n : Word) : (s.setPsd m n).ipuDonePending = s.ipuDonePending := rfl
@[simp] theorem State.setPsd_mem (s : State) (m n : Word) : (s.setPsd m n).mem = s.mem := rfl
@[simp] theorem State.setPsd_panel (s : State) (m n : Word) : (s.setPsd m n).panel = s.panel := rfl
@[simp] theorem State.setPsd_instrPc (s : State) (m n : Word) : (s.setPsd m n).instrPc = s.instrPc := rfl
@[simp] theorem State.setPsd_abandoned (s : State) (m n : Word) : (s.setPsd m n).abandoned = s.abandoned := rfl
@[simp] theorem State.setPsd_pendingArith (s : State) (m n : Word) : (s.setPsd m n).pendingArith = s.pendingArith := rfl
@[simp] theorem State.setPsd_pendingTimeout (s : State) (m n : Word) : (s.setPsd m n).pendingTimeout = s.pendingTimeout := rfl
@[simp] theorem State.setPsd_pendingPower (s : State) (m n : Word) : (s.setPsd m n).pendingPower = s.pendingPower := rfl
@[simp] theorem State.setPsd_noHalt (s : State) (m n : Word) : (s.setPsd m n).noHalt = s.noHalt := rfl
@[simp] theorem State.setPsd_haltRequest (s : State) (m n : Word) : (s.setPsd m n).haltRequest = s.haltRequest := rfl
@[simp] theorem State.setPsd_stepping (s : State) (m n : Word) : (s.setPsd m n).stepping = s.stepping := rfl
@[simp] theorem State.setPsd_stopHit (s : State) (m n : Word) : (s.setPsd m n).stopHit = s.stopHit := rfl
@[simp] theorem State.setPsd_parityBad (s : State) (m n : Word) : (s.setPsd m n).parityBad = s.parityBad := rfl
@[simp] theorem State.setPsd_inputs (s : State) (m n : Word) : (s.setPsd m n).inputs = s.inputs := rfl
@[simp] theorem State.setPsd_bus (s : State) (m n : Word) : (s.setPsd m n).bus = s.bus := rfl
@[simp] theorem State.setPsd_channelOut (s : State) (m n : Word) : (s.setPsd m n).channelOut = s.channelOut := rfl
@[simp] theorem State.setPsd_freeIx (s : State) (m n : Word) : (s.setPsd m n).freeIx = s.freeIx := rfl

@[simp] theorem State.setEnabled_cfg (s : State) (l : Level) (b : Bool) : (s.setEnabled l b).cfg = s.cfg := rfl
@[simp] theorem State.setEnabled_regs (s : State) (l : Level) (b : Bool) : (s.setEnabled l b).regs = s.regs := rfl
@[simp] theorem State.setEnabled_mode (s : State) (l : Level) (b : Bool) : (s.setEnabled l b).mode = s.mode := rfl
@[simp] theorem State.setEnabled_priv (s : State) (l : Level) (b : Bool) : (s.setEnabled l b).priv = s.priv := rfl
@[simp] theorem State.setEnabled_cc (s : State) (l : Level) (b : Bool) : (s.setEnabled l b).cc = s.cc := rfl
@[simp] theorem State.setEnabled_ext (s : State) (l : Level) (b : Bool) : (s.setEnabled l b).ext = s.ext := rfl
@[simp] theorem State.setEnabled_hist (s : State) (l : Level) (b : Bool) : (s.setEnabled l b).hist = s.hist := rfl
@[simp] theorem State.setEnabled_aexp (s : State) (l : Level) (b : Bool) : (s.setEnabled l b).aexp = s.aexp := rfl
@[simp] theorem State.setEnabled_pc (s : State) (l : Level) (b : Bool) : (s.setEnabled l b).pc = s.pc := rfl
@[simp] theorem State.setEnabled_psd2 (s : State) (l : Level) (b : Bool) : (s.setEnabled l b).psd2 = s.psd2 := rfl
@[simp] theorem State.setEnabled_blocked (s : State) (l : Level) (b : Bool) : (s.setEnabled l b).blocked = s.blocked := rfl
@[simp] theorem State.setEnabled_blockCount (s : State) (l : Level) (b : Bool) : (s.setEnabled l b).blockCount = s.blockCount := rfl
@[simp] theorem State.setEnabled_mapped (s : State) (l : Level) (b : Bool) : (s.setEnabled l b).mapped = s.mapped := rfl
@[simp] theorem State.setEnabled_map (s : State) (l : Level) (b : Bool) : (s.setEnabled l b).map = s.map := rfl
@[simp] theorem State.setEnabled_prot (s : State) (l : Level) (b : Bool) : (s.setEnabled l b).prot = s.prot := rfl
@[simp] theorem State.setEnabled_spad (s : State) (l : Level) (b : Bool) : (s.setEnabled l b).spad = s.spad := rfl
@[simp] theorem State.setEnabled_trapsEnabled (s : State) (l : Level) (b : Bool) : (s.setEnabled l b).trapsEnabled = s.trapsEnabled := rfl
@[simp] theorem State.setEnabled_bmtoEnabled (s : State) (l : Level) (b : Bool) : (s.setEnabled l b).bmtoEnabled = s.bmtoEnabled := rfl
@[simp] theorem State.setEnabled_csw (s : State) (l : Level) (b : Bool) : (s.setEnabled l b).csw = s.csw := rfl
@[simp] theorem State.setEnabled_wcs (s : State) (l : Level) (b : Bool) : (s.setEnabled l b).wcs = s.wcs := rfl
@[simp] theorem State.setEnabled_requesting (s : State) (l : Level) (b : Bool) : (s.setEnabled l b).requesting = s.requesting := rfl
@[simp] theorem State.setEnabled_active (s : State) (l : Level) (b : Bool) : (s.setEnabled l b).active = s.active := rfl
@[simp] theorem State.setEnabled_runState (s : State) (l : Level) (b : Bool) : (s.setEnabled l b).runState = s.runState := rfl
@[simp] theorem State.setEnabled_execDepth (s : State) (l : Level) (b : Bool) : (s.setEnabled l b).execDepth = s.execDepth := rfl
@[simp] theorem State.setEnabled_nonint (s : State) (l : Level) (b : Bool) : (s.setEnabled l b).nonint = s.nonint := rfl
@[simp] theorem State.setEnabled_memLock (s : State) (l : Level) (b : Bool) : (s.setEnabled l b).memLock = s.memLock := rfl
@[simp] theorem State.setEnabled_intervalTimer (s : State) (l : Level) (b : Bool) : (s.setEnabled l b).intervalTimer = s.intervalTimer := rfl
@[simp] theorem State.setEnabled_wcsInterlock (s : State) (l : Level) (b : Bool) : (s.setEnabled l b).wcsInterlock = s.wcsInterlock := rfl
@[simp] theorem State.setEnabled_ipuStartPending (s : State) (l : Level) (b : Bool) : (s.setEnabled l b).ipuStartPending = s.ipuStartPending := rfl
@[simp] theorem State.setEnabled_ipuDonePending (s : State) (l : Level) (b : Bool) : (s.setEnabled l b).ipuDonePending = s.ipuDonePending := rfl
@[simp] theorem State.setEnabled_mem (s : State) (l : Level) (b : Bool) : (s.setEnabled l b).mem = s.mem := rfl
@[simp] theorem State.setEnabled_panel (s : State) (l : Level) (b : Bool) : (s.setEnabled l b).panel = s.panel := rfl
@[simp] theorem State.setEnabled_instrPc (s : State) (l : Level) (b : Bool) : (s.setEnabled l b).instrPc = s.instrPc := rfl
@[simp] theorem State.setEnabled_abandoned (s : State) (l : Level) (b : Bool) : (s.setEnabled l b).abandoned = s.abandoned := rfl
@[simp] theorem State.setEnabled_pendingArith (s : State) (l : Level) (b : Bool) : (s.setEnabled l b).pendingArith = s.pendingArith := rfl
@[simp] theorem State.setEnabled_pendingTimeout (s : State) (l : Level) (b : Bool) : (s.setEnabled l b).pendingTimeout = s.pendingTimeout := rfl
@[simp] theorem State.setEnabled_pendingPower (s : State) (l : Level) (b : Bool) : (s.setEnabled l b).pendingPower = s.pendingPower := rfl
@[simp] theorem State.setEnabled_noHalt (s : State) (l : Level) (b : Bool) : (s.setEnabled l b).noHalt = s.noHalt := rfl
@[simp] theorem State.setEnabled_haltRequest (s : State) (l : Level) (b : Bool) : (s.setEnabled l b).haltRequest = s.haltRequest := rfl
@[simp] theorem State.setEnabled_stepping (s : State) (l : Level) (b : Bool) : (s.setEnabled l b).stepping = s.stepping := rfl
@[simp] theorem State.setEnabled_stopHit (s : State) (l : Level) (b : Bool) : (s.setEnabled l b).stopHit = s.stopHit := rfl
@[simp] theorem State.setEnabled_parityBad (s : State) (l : Level) (b : Bool) : (s.setEnabled l b).parityBad = s.parityBad := rfl
@[simp] theorem State.setEnabled_inputs (s : State) (l : Level) (b : Bool) : (s.setEnabled l b).inputs = s.inputs := rfl
@[simp] theorem State.setEnabled_bus (s : State) (l : Level) (b : Bool) : (s.setEnabled l b).bus = s.bus := rfl
@[simp] theorem State.setEnabled_channelOut (s : State) (l : Level) (b : Bool) : (s.setEnabled l b).channelOut = s.channelOut := rfl
@[simp] theorem State.setEnabled_freeIx (s : State) (l : Level) (b : Bool) : (s.setEnabled l b).freeIx = s.freeIx := rfl

@[simp] theorem State.setRequesting_cfg (s : State) (l : Level) (b : Bool) : (s.setRequesting l b).cfg = s.cfg := rfl
@[simp] theorem State.setRequesting_regs (s : State) (l : Level) (b : Bool) : (s.setRequesting l b).regs = s.regs := rfl
@[simp] theorem State.setRequesting_mode (s : State) (l : Level) (b : Bool) : (s.setRequesting l b).mode = s.mode := rfl
@[simp] theorem State.setRequesting_priv (s : State) (l : Level) (b : Bool) : (s.setRequesting l b).priv = s.priv := rfl
@[simp] theorem State.setRequesting_cc (s : State) (l : Level) (b : Bool) : (s.setRequesting l b).cc = s.cc := rfl
@[simp] theorem State.setRequesting_ext (s : State) (l : Level) (b : Bool) : (s.setRequesting l b).ext = s.ext := rfl
@[simp] theorem State.setRequesting_hist (s : State) (l : Level) (b : Bool) : (s.setRequesting l b).hist = s.hist := rfl
@[simp] theorem State.setRequesting_aexp (s : State) (l : Level) (b : Bool) : (s.setRequesting l b).aexp = s.aexp := rfl
@[simp] theorem State.setRequesting_pc (s : State) (l : Level) (b : Bool) : (s.setRequesting l b).pc = s.pc := rfl
@[simp] theorem State.setRequesting_psd2 (s : State) (l : Level) (b : Bool) : (s.setRequesting l b).psd2 = s.psd2 := rfl
@[simp] theorem State.setRequesting_blocked (s : State) (l : Level) (b : Bool) : (s.setRequesting l b).blocked = s.blocked := rfl
@[simp] theorem State.setRequesting_blockCount (s : State) (l : Level) (b : Bool) : (s.setRequesting l b).blockCount = s.blockCount := rfl
@[simp] theorem State.setRequesting_mapped (s : State) (l : Level) (b : Bool) : (s.setRequesting l b).mapped = s.mapped := rfl
@[simp] theorem State.setRequesting_map (s : State) (l : Level) (b : Bool) : (s.setRequesting l b).map = s.map := rfl
@[simp] theorem State.setRequesting_prot (s : State) (l : Level) (b : Bool) : (s.setRequesting l b).prot = s.prot := rfl
@[simp] theorem State.setRequesting_spad (s : State) (l : Level) (b : Bool) : (s.setRequesting l b).spad = s.spad := rfl
@[simp] theorem State.setRequesting_trapsEnabled (s : State) (l : Level) (b : Bool) : (s.setRequesting l b).trapsEnabled = s.trapsEnabled := rfl
@[simp] theorem State.setRequesting_bmtoEnabled (s : State) (l : Level) (b : Bool) : (s.setRequesting l b).bmtoEnabled = s.bmtoEnabled := rfl
@[simp] theorem State.setRequesting_csw (s : State) (l : Level) (b : Bool) : (s.setRequesting l b).csw = s.csw := rfl
@[simp] theorem State.setRequesting_wcs (s : State) (l : Level) (b : Bool) : (s.setRequesting l b).wcs = s.wcs := rfl
@[simp] theorem State.setRequesting_enabled (s : State) (l : Level) (b : Bool) : (s.setRequesting l b).enabled = s.enabled := rfl
@[simp] theorem State.setRequesting_active (s : State) (l : Level) (b : Bool) : (s.setRequesting l b).active = s.active := rfl
@[simp] theorem State.setRequesting_runState (s : State) (l : Level) (b : Bool) : (s.setRequesting l b).runState = s.runState := rfl
@[simp] theorem State.setRequesting_execDepth (s : State) (l : Level) (b : Bool) : (s.setRequesting l b).execDepth = s.execDepth := rfl
@[simp] theorem State.setRequesting_nonint (s : State) (l : Level) (b : Bool) : (s.setRequesting l b).nonint = s.nonint := rfl
@[simp] theorem State.setRequesting_memLock (s : State) (l : Level) (b : Bool) : (s.setRequesting l b).memLock = s.memLock := rfl
@[simp] theorem State.setRequesting_intervalTimer (s : State) (l : Level) (b : Bool) : (s.setRequesting l b).intervalTimer = s.intervalTimer := rfl
@[simp] theorem State.setRequesting_wcsInterlock (s : State) (l : Level) (b : Bool) : (s.setRequesting l b).wcsInterlock = s.wcsInterlock := rfl
@[simp] theorem State.setRequesting_ipuStartPending (s : State) (l : Level) (b : Bool) : (s.setRequesting l b).ipuStartPending = s.ipuStartPending := rfl
@[simp] theorem State.setRequesting_ipuDonePending (s : State) (l : Level) (b : Bool) : (s.setRequesting l b).ipuDonePending = s.ipuDonePending := rfl
@[simp] theorem State.setRequesting_mem (s : State) (l : Level) (b : Bool) : (s.setRequesting l b).mem = s.mem := rfl
@[simp] theorem State.setRequesting_panel (s : State) (l : Level) (b : Bool) : (s.setRequesting l b).panel = s.panel := rfl
@[simp] theorem State.setRequesting_instrPc (s : State) (l : Level) (b : Bool) : (s.setRequesting l b).instrPc = s.instrPc := rfl
@[simp] theorem State.setRequesting_abandoned (s : State) (l : Level) (b : Bool) : (s.setRequesting l b).abandoned = s.abandoned := rfl
@[simp] theorem State.setRequesting_pendingArith (s : State) (l : Level) (b : Bool) : (s.setRequesting l b).pendingArith = s.pendingArith := rfl
@[simp] theorem State.setRequesting_pendingTimeout (s : State) (l : Level) (b : Bool) : (s.setRequesting l b).pendingTimeout = s.pendingTimeout := rfl
@[simp] theorem State.setRequesting_pendingPower (s : State) (l : Level) (b : Bool) : (s.setRequesting l b).pendingPower = s.pendingPower := rfl
@[simp] theorem State.setRequesting_noHalt (s : State) (l : Level) (b : Bool) : (s.setRequesting l b).noHalt = s.noHalt := rfl
@[simp] theorem State.setRequesting_haltRequest (s : State) (l : Level) (b : Bool) : (s.setRequesting l b).haltRequest = s.haltRequest := rfl
@[simp] theorem State.setRequesting_stepping (s : State) (l : Level) (b : Bool) : (s.setRequesting l b).stepping = s.stepping := rfl
@[simp] theorem State.setRequesting_stopHit (s : State) (l : Level) (b : Bool) : (s.setRequesting l b).stopHit = s.stopHit := rfl
@[simp] theorem State.setRequesting_parityBad (s : State) (l : Level) (b : Bool) : (s.setRequesting l b).parityBad = s.parityBad := rfl
@[simp] theorem State.setRequesting_inputs (s : State) (l : Level) (b : Bool) : (s.setRequesting l b).inputs = s.inputs := rfl
@[simp] theorem State.setRequesting_bus (s : State) (l : Level) (b : Bool) : (s.setRequesting l b).bus = s.bus := rfl
@[simp] theorem State.setRequesting_channelOut (s : State) (l : Level) (b : Bool) : (s.setRequesting l b).channelOut = s.channelOut := rfl
@[simp] theorem State.setRequesting_freeIx (s : State) (l : Level) (b : Bool) : (s.setRequesting l b).freeIx = s.freeIx := rfl

@[simp] theorem State.setActive_cfg (s : State) (l : Level) (b : Bool) : (s.setActive l b).cfg = s.cfg := rfl
@[simp] theorem State.setActive_regs (s : State) (l : Level) (b : Bool) : (s.setActive l b).regs = s.regs := rfl
@[simp] theorem State.setActive_mode (s : State) (l : Level) (b : Bool) : (s.setActive l b).mode = s.mode := rfl
@[simp] theorem State.setActive_priv (s : State) (l : Level) (b : Bool) : (s.setActive l b).priv = s.priv := rfl
@[simp] theorem State.setActive_cc (s : State) (l : Level) (b : Bool) : (s.setActive l b).cc = s.cc := rfl
@[simp] theorem State.setActive_ext (s : State) (l : Level) (b : Bool) : (s.setActive l b).ext = s.ext := rfl
@[simp] theorem State.setActive_hist (s : State) (l : Level) (b : Bool) : (s.setActive l b).hist = s.hist := rfl
@[simp] theorem State.setActive_aexp (s : State) (l : Level) (b : Bool) : (s.setActive l b).aexp = s.aexp := rfl
@[simp] theorem State.setActive_pc (s : State) (l : Level) (b : Bool) : (s.setActive l b).pc = s.pc := rfl
@[simp] theorem State.setActive_psd2 (s : State) (l : Level) (b : Bool) : (s.setActive l b).psd2 = s.psd2 := rfl
@[simp] theorem State.setActive_blocked (s : State) (l : Level) (b : Bool) : (s.setActive l b).blocked = s.blocked := rfl
@[simp] theorem State.setActive_blockCount (s : State) (l : Level) (b : Bool) : (s.setActive l b).blockCount = s.blockCount := rfl
@[simp] theorem State.setActive_mapped (s : State) (l : Level) (b : Bool) : (s.setActive l b).mapped = s.mapped := rfl
@[simp] theorem State.setActive_map (s : State) (l : Level) (b : Bool) : (s.setActive l b).map = s.map := rfl
@[simp] theorem State.setActive_prot (s : State) (l : Level) (b : Bool) : (s.setActive l b).prot = s.prot := rfl
@[simp] theorem State.setActive_spad (s : State) (l : Level) (b : Bool) : (s.setActive l b).spad = s.spad := rfl
@[simp] theorem State.setActive_trapsEnabled (s : State) (l : Level) (b : Bool) : (s.setActive l b).trapsEnabled = s.trapsEnabled := rfl
@[simp] theorem State.setActive_bmtoEnabled (s : State) (l : Level) (b : Bool) : (s.setActive l b).bmtoEnabled = s.bmtoEnabled := rfl
@[simp] theorem State.setActive_csw (s : State) (l : Level) (b : Bool) : (s.setActive l b).csw = s.csw := rfl
@[simp] theorem State.setActive_wcs (s : State) (l : Level) (b : Bool) : (s.setActive l b).wcs = s.wcs := rfl
@[simp] theorem State.setActive_enabled (s : State) (l : Level) (b : Bool) : (s.setActive l b).enabled = s.enabled := rfl
@[simp] theorem State.setActive_requesting (s : State) (l : Level) (b : Bool) : (s.setActive l b).requesting = s.requesting := rfl
@[simp] theorem State.setActive_runState (s : State) (l : Level) (b : Bool) : (s.setActive l b).runState = s.runState := rfl
@[simp] theorem State.setActive_execDepth (s : State) (l : Level) (b : Bool) : (s.setActive l b).execDepth = s.execDepth := rfl
@[simp] theorem State.setActive_nonint (s : State) (l : Level) (b : Bool) : (s.setActive l b).nonint = s.nonint := rfl
@[simp] theorem State.setActive_memLock (s : State) (l : Level) (b : Bool) : (s.setActive l b).memLock = s.memLock := rfl
@[simp] theorem State.setActive_intervalTimer (s : State) (l : Level) (b : Bool) : (s.setActive l b).intervalTimer = s.intervalTimer := rfl
@[simp] theorem State.setActive_wcsInterlock (s : State) (l : Level) (b : Bool) : (s.setActive l b).wcsInterlock = s.wcsInterlock := rfl
@[simp] theorem State.setActive_ipuStartPending (s : State) (l : Level) (b : Bool) : (s.setActive l b).ipuStartPending = s.ipuStartPending := rfl
@[simp] theorem State.setActive_ipuDonePending (s : State) (l : Level) (b : Bool) : (s.setActive l b).ipuDonePending = s.ipuDonePending := rfl
@[simp] theorem State.setActive_mem (s : State) (l : Level) (b : Bool) : (s.setActive l b).mem = s.mem := rfl
@[simp] theorem State.setActive_panel (s : State) (l : Level) (b : Bool) : (s.setActive l b).panel = s.panel := rfl
@[simp] theorem State.setActive_instrPc (s : State) (l : Level) (b : Bool) : (s.setActive l b).instrPc = s.instrPc := rfl
@[simp] theorem State.setActive_abandoned (s : State) (l : Level) (b : Bool) : (s.setActive l b).abandoned = s.abandoned := rfl
@[simp] theorem State.setActive_pendingArith (s : State) (l : Level) (b : Bool) : (s.setActive l b).pendingArith = s.pendingArith := rfl
@[simp] theorem State.setActive_pendingTimeout (s : State) (l : Level) (b : Bool) : (s.setActive l b).pendingTimeout = s.pendingTimeout := rfl
@[simp] theorem State.setActive_pendingPower (s : State) (l : Level) (b : Bool) : (s.setActive l b).pendingPower = s.pendingPower := rfl
@[simp] theorem State.setActive_noHalt (s : State) (l : Level) (b : Bool) : (s.setActive l b).noHalt = s.noHalt := rfl
@[simp] theorem State.setActive_haltRequest (s : State) (l : Level) (b : Bool) : (s.setActive l b).haltRequest = s.haltRequest := rfl
@[simp] theorem State.setActive_stepping (s : State) (l : Level) (b : Bool) : (s.setActive l b).stepping = s.stepping := rfl
@[simp] theorem State.setActive_stopHit (s : State) (l : Level) (b : Bool) : (s.setActive l b).stopHit = s.stopHit := rfl
@[simp] theorem State.setActive_parityBad (s : State) (l : Level) (b : Bool) : (s.setActive l b).parityBad = s.parityBad := rfl
@[simp] theorem State.setActive_inputs (s : State) (l : Level) (b : Bool) : (s.setActive l b).inputs = s.inputs := rfl
@[simp] theorem State.setActive_bus (s : State) (l : Level) (b : Bool) : (s.setActive l b).bus = s.bus := rfl
@[simp] theorem State.setActive_channelOut (s : State) (l : Level) (b : Bool) : (s.setActive l b).channelOut = s.channelOut := rfl
@[simp] theorem State.setActive_freeIx (s : State) (l : Level) (b : Bool) : (s.setActive l b).freeIx = s.freeIx := rfl

@[simp] theorem State.advance_cfg (s : State) (n : BitVec 18) : (s.advance n).cfg = s.cfg := rfl
@[simp] theorem State.advance_regs (s : State) (n : BitVec 18) : (s.advance n).regs = s.regs := rfl
@[simp] theorem State.advance_mode (s : State) (n : BitVec 18) : (s.advance n).mode = s.mode := rfl
@[simp] theorem State.advance_priv (s : State) (n : BitVec 18) : (s.advance n).priv = s.priv := rfl
@[simp] theorem State.advance_cc (s : State) (n : BitVec 18) : (s.advance n).cc = s.cc := rfl
@[simp] theorem State.advance_ext (s : State) (n : BitVec 18) : (s.advance n).ext = s.ext := rfl
@[simp] theorem State.advance_aexp (s : State) (n : BitVec 18) : (s.advance n).aexp = s.aexp := rfl
@[simp] theorem State.advance_psd2 (s : State) (n : BitVec 18) : (s.advance n).psd2 = s.psd2 := rfl
@[simp] theorem State.advance_blocked (s : State) (n : BitVec 18) : (s.advance n).blocked = s.blocked := rfl
@[simp] theorem State.advance_blockCount (s : State) (n : BitVec 18) : (s.advance n).blockCount = s.blockCount := rfl
@[simp] theorem State.advance_mapped (s : State) (n : BitVec 18) : (s.advance n).mapped = s.mapped := rfl
@[simp] theorem State.advance_map (s : State) (n : BitVec 18) : (s.advance n).map = s.map := rfl
@[simp] theorem State.advance_prot (s : State) (n : BitVec 18) : (s.advance n).prot = s.prot := rfl
@[simp] theorem State.advance_spad (s : State) (n : BitVec 18) : (s.advance n).spad = s.spad := rfl
@[simp] theorem State.advance_trapsEnabled (s : State) (n : BitVec 18) : (s.advance n).trapsEnabled = s.trapsEnabled := rfl
@[simp] theorem State.advance_bmtoEnabled (s : State) (n : BitVec 18) : (s.advance n).bmtoEnabled = s.bmtoEnabled := rfl
@[simp] theorem State.advance_csw (s : State) (n : BitVec 18) : (s.advance n).csw = s.csw := rfl
@[simp] theorem State.advance_wcs (s : State) (n : BitVec 18) : (s.advance n).wcs = s.wcs := rfl
@[simp] theorem State.advance_enabled (s : State) (n : BitVec 18) : (s.advance n).enabled = s.enabled := rfl
@[simp] theorem State.advance_requesting (s : State) (n : BitVec 18) : (s.advance n).requesting = s.requesting := rfl
@[simp] theorem State.advance_active (s : State) (n : BitVec 18) : (s.advance n).active = s.active := rfl
@[simp] theorem State.advance_runState (s : State) (n : BitVec 18) : (s.advance n).runState = s.runState := rfl
@[simp] theorem State.advance_execDepth (s : State) (n : BitVec 18) : (s.advance n).execDepth = s.execDepth := rfl
@[simp] theorem State.advance_nonint (s : State) (n : BitVec 18) : (s.advance n).nonint = s.nonint := rfl
@[simp] theorem State.advance_memLock (s : State) (n : BitVec 18) : (s.advance n).memLock = s.memLock := rfl
@[simp] theorem State.advance_intervalTimer (s : State) (n : BitVec 18) : (s.advance n).intervalTimer = s.intervalTimer := rfl
@[simp] theorem State.advance_wcsInterlock (s : State) (n : BitVec 18) : (s.advance n).wcsInterlock = s.wcsInterlock := rfl
@[simp] theorem State.advance_ipuStartPending (s : State) (n : BitVec 18) : (s.advance n).ipuStartPending = s.ipuStartPending := rfl
@[simp] theorem State.advance_ipuDonePending (s : State) (n : BitVec 18) : (s.advance n).ipuDonePending = s.ipuDonePending := rfl
@[simp] theorem State.advance_mem (s : State) (n : BitVec 18) : (s.advance n).mem = s.mem := rfl
@[simp] theorem State.advance_panel (s : State) (n : BitVec 18) : (s.advance n).panel = s.panel := rfl
@[simp] theorem State.advance_pendingArith (s : State) (n : BitVec 18) : (s.advance n).pendingArith = s.pendingArith := rfl
@[simp] theorem State.advance_pendingTimeout (s : State) (n : BitVec 18) : (s.advance n).pendingTimeout = s.pendingTimeout := rfl
@[simp] theorem State.advance_pendingPower (s : State) (n : BitVec 18) : (s.advance n).pendingPower = s.pendingPower := rfl
@[simp] theorem State.advance_haltRequest (s : State) (n : BitVec 18) : (s.advance n).haltRequest = s.haltRequest := rfl
@[simp] theorem State.advance_stepping (s : State) (n : BitVec 18) : (s.advance n).stepping = s.stepping := rfl
@[simp] theorem State.advance_stopHit (s : State) (n : BitVec 18) : (s.advance n).stopHit = s.stopHit := rfl
@[simp] theorem State.advance_parityBad (s : State) (n : BitVec 18) : (s.advance n).parityBad = s.parityBad := rfl
@[simp] theorem State.advance_inputs (s : State) (n : BitVec 18) : (s.advance n).inputs = s.inputs := rfl
@[simp] theorem State.advance_bus (s : State) (n : BitVec 18) : (s.advance n).bus = s.bus := rfl
@[simp] theorem State.advance_channelOut (s : State) (n : BitVec 18) : (s.advance n).channelOut = s.channelOut := rfl
@[simp] theorem State.advance_freeIx (s : State) (n : BitVec 18) : (s.advance n).freeIx = s.freeIx := rfl

@[simp] theorem State.wake_cfg (s : State) : (s.wake).cfg = s.cfg := rfl
@[simp] theorem State.wake_regs (s : State) : (s.wake).regs = s.regs := rfl
@[simp] theorem State.wake_mode (s : State) : (s.wake).mode = s.mode := rfl
@[simp] theorem State.wake_priv (s : State) : (s.wake).priv = s.priv := rfl
@[simp] theorem State.wake_cc (s : State) : (s.wake).cc = s.cc := rfl
@[simp] theorem State.wake_ext (s : State) : (s.wake).ext = s.ext := rfl
@[simp] theorem State.wake_hist (s : State) : (s.wake).hist = s.hist := rfl
@[simp] theorem State.wake_aexp (s : State) : (s.wake).aexp = s.aexp := rfl
@[simp] theorem State.wake_pc (s : State) : (s.wake).pc = s.pc := rfl
@[simp] theorem State.wake_psd2 (s : State) : (s.wake).psd2 = s.psd2 := rfl
@[simp] theorem State.wake_blocked (s : State) : (s.wake).blocked = s.blocked := rfl
@[simp] theorem State.wake_blockCount (s : State) : (s.wake).blockCount = s.blockCount := rfl
@[simp] theorem State.wake_mapped (s : State) : (s.wake).mapped = s.mapped := rfl
@[simp] theorem State.wake_map (s : State) : (s.wake).map = s.map := rfl
@[simp] theorem State.wake_prot (s : State) : (s.wake).prot = s.prot := rfl
@[simp] theorem State.wake_spad (s : State) : (s.wake).spad = s.spad := rfl
@[simp] theorem State.wake_trapsEnabled (s : State) : (s.wake).trapsEnabled = s.trapsEnabled := rfl
@[simp] theorem State.wake_bmtoEnabled (s : State) : (s.wake).bmtoEnabled = s.bmtoEnabled := rfl
@[simp] theorem State.wake_csw (s : State) : (s.wake).csw = s.csw := rfl
@[simp] theorem State.wake_wcs (s : State) : (s.wake).wcs = s.wcs := rfl
@[simp] theorem State.wake_enabled (s : State) : (s.wake).enabled = s.enabled := rfl
@[simp] theorem State.wake_requesting (s : State) : (s.wake).requesting = s.requesting := rfl
@[simp] theorem State.wake_active (s : State) : (s.wake).active = s.active := rfl
@[simp] theorem State.wake_execDepth (s : State) : (s.wake).execDepth = s.execDepth := rfl
@[simp] theorem State.wake_nonint (s : State) : (s.wake).nonint = s.nonint := rfl
@[simp] theorem State.wake_memLock (s : State) : (s.wake).memLock = s.memLock := rfl
@[simp] theorem State.wake_intervalTimer (s : State) : (s.wake).intervalTimer = s.intervalTimer := rfl
@[simp] theorem State.wake_wcsInterlock (s : State) : (s.wake).wcsInterlock = s.wcsInterlock := rfl
@[simp] theorem State.wake_ipuStartPending (s : State) : (s.wake).ipuStartPending = s.ipuStartPending := rfl
@[simp] theorem State.wake_ipuDonePending (s : State) : (s.wake).ipuDonePending = s.ipuDonePending := rfl
@[simp] theorem State.wake_mem (s : State) : (s.wake).mem = s.mem := rfl
@[simp] theorem State.wake_panel (s : State) : (s.wake).panel = s.panel := rfl
@[simp] theorem State.wake_instrPc (s : State) : (s.wake).instrPc = s.instrPc := rfl
@[simp] theorem State.wake_abandoned (s : State) : (s.wake).abandoned = s.abandoned := rfl
@[simp] theorem State.wake_pendingArith (s : State) : (s.wake).pendingArith = s.pendingArith := rfl
@[simp] theorem State.wake_pendingTimeout (s : State) : (s.wake).pendingTimeout = s.pendingTimeout := rfl
@[simp] theorem State.wake_pendingPower (s : State) : (s.wake).pendingPower = s.pendingPower := rfl
@[simp] theorem State.wake_noHalt (s : State) : (s.wake).noHalt = s.noHalt := rfl
@[simp] theorem State.wake_haltRequest (s : State) : (s.wake).haltRequest = s.haltRequest := rfl
@[simp] theorem State.wake_stepping (s : State) : (s.wake).stepping = s.stepping := rfl
@[simp] theorem State.wake_stopHit (s : State) : (s.wake).stopHit = s.stopHit := rfl
@[simp] theorem State.wake_parityBad (s : State) : (s.wake).parityBad = s.parityBad := rfl
@[simp] theorem State.wake_inputs (s : State) : (s.wake).inputs = s.inputs := rfl
@[simp] theorem State.wake_bus (s : State) : (s.wake).bus = s.bus := rfl
@[simp] theorem State.wake_channelOut (s : State) : (s.wake).channelOut = s.channelOut := rfl
@[simp] theorem State.wake_freeIx (s : State) : (s.wake).freeIx = s.freeIx := rfl

@[simp] theorem State.abandon_cfg (s : State) (t : Trap) : (s.abandon t).cfg = s.cfg := rfl
@[simp] theorem State.abandon_regs (s : State) (t : Trap) : (s.abandon t).regs = s.regs := rfl
@[simp] theorem State.abandon_mode (s : State) (t : Trap) : (s.abandon t).mode = s.mode := rfl
@[simp] theorem State.abandon_priv (s : State) (t : Trap) : (s.abandon t).priv = s.priv := rfl
@[simp] theorem State.abandon_cc (s : State) (t : Trap) : (s.abandon t).cc = s.cc := rfl
@[simp] theorem State.abandon_ext (s : State) (t : Trap) : (s.abandon t).ext = s.ext := rfl
@[simp] theorem State.abandon_hist (s : State) (t : Trap) : (s.abandon t).hist = s.hist := rfl
@[simp] theorem State.abandon_aexp (s : State) (t : Trap) : (s.abandon t).aexp = s.aexp := rfl
@[simp] theorem State.abandon_pc (s : State) (t : Trap) : (s.abandon t).pc = s.pc := rfl
@[simp] theorem State.abandon_psd2 (s : State) (t : Trap) : (s.abandon t).psd2 = s.psd2 := rfl
@[simp] theorem State.abandon_blocked (s : State) (t : Trap) : (s.abandon t).blocked = s.blocked := rfl
@[simp] theorem State.abandon_blockCount (s : State) (t : Trap) : (s.abandon t).blockCount = s.blockCount := rfl
@[simp] theorem State.abandon_mapped (s : State) (t : Trap) : (s.abandon t).mapped = s.mapped := rfl
@[simp] theorem State.abandon_map (s : State) (t : Trap) : (s.abandon t).map = s.map := rfl
@[simp] theorem State.abandon_prot (s : State) (t : Trap) : (s.abandon t).prot = s.prot := rfl
@[simp] theorem State.abandon_spad (s : State) (t : Trap) : (s.abandon t).spad = s.spad := rfl
@[simp] theorem State.abandon_trapsEnabled (s : State) (t : Trap) : (s.abandon t).trapsEnabled = s.trapsEnabled := rfl
@[simp] theorem State.abandon_bmtoEnabled (s : State) (t : Trap) : (s.abandon t).bmtoEnabled = s.bmtoEnabled := rfl
@[simp] theorem State.abandon_csw (s : State) (t : Trap) : (s.abandon t).csw = s.csw := rfl
@[simp] theorem State.abandon_wcs (s : State) (t : Trap) : (s.abandon t).wcs = s.wcs := rfl
@[simp] theorem State.abandon_enabled (s : State) (t : Trap) : (s.abandon t).enabled = s.enabled := rfl
@[simp] theorem State.abandon_requesting (s : State) (t : Trap) : (s.abandon t).requesting = s.requesting := rfl
@[simp] theorem State.abandon_active (s : State) (t : Trap) : (s.abandon t).active = s.active := rfl
@[simp] theorem State.abandon_runState (s : State) (t : Trap) : (s.abandon t).runState = s.runState := rfl
@[simp] theorem State.abandon_nonint (s : State) (t : Trap) : (s.abandon t).nonint = s.nonint := rfl
@[simp] theorem State.abandon_memLock (s : State) (t : Trap) : (s.abandon t).memLock = s.memLock := rfl
@[simp] theorem State.abandon_intervalTimer (s : State) (t : Trap) : (s.abandon t).intervalTimer = s.intervalTimer := rfl
@[simp] theorem State.abandon_wcsInterlock (s : State) (t : Trap) : (s.abandon t).wcsInterlock = s.wcsInterlock := rfl
@[simp] theorem State.abandon_ipuStartPending (s : State) (t : Trap) : (s.abandon t).ipuStartPending = s.ipuStartPending := rfl
@[simp] theorem State.abandon_ipuDonePending (s : State) (t : Trap) : (s.abandon t).ipuDonePending = s.ipuDonePending := rfl
@[simp] theorem State.abandon_mem (s : State) (t : Trap) : (s.abandon t).mem = s.mem := rfl
@[simp] theorem State.abandon_instrPc (s : State) (t : Trap) : (s.abandon t).instrPc = s.instrPc := rfl
@[simp] theorem State.abandon_pendingArith (s : State) (t : Trap) : (s.abandon t).pendingArith = s.pendingArith := rfl
@[simp] theorem State.abandon_pendingTimeout (s : State) (t : Trap) : (s.abandon t).pendingTimeout = s.pendingTimeout := rfl
@[simp] theorem State.abandon_pendingPower (s : State) (t : Trap) : (s.abandon t).pendingPower = s.pendingPower := rfl
@[simp] theorem State.abandon_noHalt (s : State) (t : Trap) : (s.abandon t).noHalt = s.noHalt := rfl
@[simp] theorem State.abandon_haltRequest (s : State) (t : Trap) : (s.abandon t).haltRequest = s.haltRequest := rfl
@[simp] theorem State.abandon_stepping (s : State) (t : Trap) : (s.abandon t).stepping = s.stepping := rfl
@[simp] theorem State.abandon_stopHit (s : State) (t : Trap) : (s.abandon t).stopHit = s.stopHit := rfl
@[simp] theorem State.abandon_parityBad (s : State) (t : Trap) : (s.abandon t).parityBad = s.parityBad := rfl
@[simp] theorem State.abandon_inputs (s : State) (t : Trap) : (s.abandon t).inputs = s.inputs := rfl
@[simp] theorem State.abandon_bus (s : State) (t : Trap) : (s.abandon t).bus = s.bus := rfl
@[simp] theorem State.abandon_channelOut (s : State) (t : Trap) : (s.abandon t).channelOut = s.channelOut := rfl
@[simp] theorem State.abandon_freeIx (s : State) (t : Trap) : (s.abandon t).freeIx = s.freeIx := rfl

@[simp] theorem State.restorePsd_cfg (s : State) (old : State) : (s.restorePsd old).cfg = s.cfg := rfl
@[simp] theorem State.restorePsd_regs (s : State) (old : State) : (s.restorePsd old).regs = s.regs := rfl
@[simp] theorem State.restorePsd_mode (s : State) (old : State) : (s.restorePsd old).mode = s.mode := rfl
@[simp] theorem State.restorePsd_map (s : State) (old : State) : (s.restorePsd old).map = s.map := rfl
@[simp] theorem State.restorePsd_prot (s : State) (old : State) : (s.restorePsd old).prot = s.prot := rfl
@[simp] theorem State.restorePsd_spad (s : State) (old : State) : (s.restorePsd old).spad = s.spad := rfl
@[simp] theorem State.restorePsd_trapsEnabled (s : State) (old : State) : (s.restorePsd old).trapsEnabled = s.trapsEnabled := rfl
@[simp] theorem State.restorePsd_bmtoEnabled (s : State) (old : State) : (s.restorePsd old).bmtoEnabled = s.bmtoEnabled := rfl
@[simp] theorem State.restorePsd_csw (s : State) (old : State) : (s.restorePsd old).csw = s.csw := rfl
@[simp] theorem State.restorePsd_wcs (s : State) (old : State) : (s.restorePsd old).wcs = s.wcs := rfl
@[simp] theorem State.restorePsd_enabled (s : State) (old : State) : (s.restorePsd old).enabled = s.enabled := rfl
@[simp] theorem State.restorePsd_requesting (s : State) (old : State) : (s.restorePsd old).requesting = s.requesting := rfl
@[simp] theorem State.restorePsd_active (s : State) (old : State) : (s.restorePsd old).active = s.active := rfl
@[simp] theorem State.restorePsd_runState (s : State) (old : State) : (s.restorePsd old).runState = s.runState := rfl
@[simp] theorem State.restorePsd_execDepth (s : State) (old : State) : (s.restorePsd old).execDepth = s.execDepth := rfl
@[simp] theorem State.restorePsd_nonint (s : State) (old : State) : (s.restorePsd old).nonint = s.nonint := rfl
@[simp] theorem State.restorePsd_memLock (s : State) (old : State) : (s.restorePsd old).memLock = s.memLock := rfl
@[simp] theorem State.restorePsd_intervalTimer (s : State) (old : State) : (s.restorePsd old).intervalTimer = s.intervalTimer := rfl
@[simp] theorem State.restorePsd_wcsInterlock (s : State) (old : State) : (s.restorePsd old).wcsInterlock = s.wcsInterlock := rfl
@[simp] theorem State.restorePsd_ipuStartPending (s : State) (old : State) : (s.restorePsd old).ipuStartPending = s.ipuStartPending := rfl
@[simp] theorem State.restorePsd_ipuDonePending (s : State) (old : State) : (s.restorePsd old).ipuDonePending = s.ipuDonePending := rfl
@[simp] theorem State.restorePsd_mem (s : State) (old : State) : (s.restorePsd old).mem = s.mem := rfl
@[simp] theorem State.restorePsd_panel (s : State) (old : State) : (s.restorePsd old).panel = s.panel := rfl
@[simp] theorem State.restorePsd_instrPc (s : State) (old : State) : (s.restorePsd old).instrPc = s.instrPc := rfl
@[simp] theorem State.restorePsd_abandoned (s : State) (old : State) : (s.restorePsd old).abandoned = s.abandoned := rfl
@[simp] theorem State.restorePsd_pendingArith (s : State) (old : State) : (s.restorePsd old).pendingArith = s.pendingArith := rfl
@[simp] theorem State.restorePsd_pendingTimeout (s : State) (old : State) : (s.restorePsd old).pendingTimeout = s.pendingTimeout := rfl
@[simp] theorem State.restorePsd_pendingPower (s : State) (old : State) : (s.restorePsd old).pendingPower = s.pendingPower := rfl
@[simp] theorem State.restorePsd_noHalt (s : State) (old : State) : (s.restorePsd old).noHalt = s.noHalt := rfl
@[simp] theorem State.restorePsd_haltRequest (s : State) (old : State) : (s.restorePsd old).haltRequest = s.haltRequest := rfl
@[simp] theorem State.restorePsd_stepping (s : State) (old : State) : (s.restorePsd old).stepping = s.stepping := rfl
@[simp] theorem State.restorePsd_stopHit (s : State) (old : State) : (s.restorePsd old).stopHit = s.stopHit := rfl
@[simp] theorem State.restorePsd_parityBad (s : State) (old : State) : (s.restorePsd old).parityBad = s.parityBad := rfl
@[simp] theorem State.restorePsd_inputs (s : State) (old : State) : (s.restorePsd old).inputs = s.inputs := rfl
@[simp] theorem State.restorePsd_bus (s : State) (old : State) : (s.restorePsd old).bus = s.bus := rfl
@[simp] theorem State.restorePsd_channelOut (s : State) (old : State) : (s.restorePsd old).channelOut = s.channelOut := rfl
@[simp] theorem State.restorePsd_freeIx (s : State) (old : State) : (s.restorePsd old).freeIx = s.freeIx := rfl

@[simp] theorem State.noteMemError_cfg (s : State) (e : MemError) : (s.noteMemError e).cfg = s.cfg := rfl
@[simp] theorem State.noteMemError_regs (s : State) (e : MemError) : (s.noteMemError e).regs = s.regs := rfl
@[simp] theorem State.noteMemError_mode (s : State) (e : MemError) : (s.noteMemError e).mode = s.mode := rfl
@[simp] theorem State.noteMemError_priv (s : State) (e : MemError) : (s.noteMemError e).priv = s.priv := rfl
@[simp] theorem State.noteMemError_cc (s : State) (e : MemError) : (s.noteMemError e).cc = s.cc := rfl
@[simp] theorem State.noteMemError_ext (s : State) (e : MemError) : (s.noteMemError e).ext = s.ext := rfl
@[simp] theorem State.noteMemError_hist (s : State) (e : MemError) : (s.noteMemError e).hist = s.hist := rfl
@[simp] theorem State.noteMemError_aexp (s : State) (e : MemError) : (s.noteMemError e).aexp = s.aexp := rfl
@[simp] theorem State.noteMemError_pc (s : State) (e : MemError) : (s.noteMemError e).pc = s.pc := rfl
@[simp] theorem State.noteMemError_psd2 (s : State) (e : MemError) : (s.noteMemError e).psd2 = s.psd2 := rfl
@[simp] theorem State.noteMemError_blocked (s : State) (e : MemError) : (s.noteMemError e).blocked = s.blocked := rfl
@[simp] theorem State.noteMemError_blockCount (s : State) (e : MemError) : (s.noteMemError e).blockCount = s.blockCount := rfl
@[simp] theorem State.noteMemError_mapped (s : State) (e : MemError) : (s.noteMemError e).mapped = s.mapped := rfl
@[simp] theorem State.noteMemError_map (s : State) (e : MemError) : (s.noteMemError e).map = s.map := rfl
@[simp] theorem State.noteMemError_prot (s : State) (e : MemError) : (s.noteMemError e).prot = s.prot := rfl
@[simp] theorem State.noteMemError_spad (s : State) (e : MemError) : (s.noteMemError e).spad = s.spad := rfl
@[simp] theorem State.noteMemError_trapsEnabled (s : State) (e : MemError) : (s.noteMemError e).trapsEnabled = s.trapsEnabled := rfl
@[simp] theorem State.noteMemError_bmtoEnabled (s : State) (e : MemError) : (s.noteMemError e).bmtoEnabled = s.bmtoEnabled := rfl
@[simp] theorem State.noteMemError_csw (s : State) (e : MemError) : (s.noteMemError e).csw = s.csw := rfl
@[simp] theorem State.noteMemError_wcs (s : State) (e : MemError) : (s.noteMemError e).wcs = s.wcs := rfl
@[simp] theorem State.noteMemError_enabled (s : State) (e : MemError) : (s.noteMemError e).enabled = s.enabled := rfl
@[simp] theorem State.noteMemError_requesting (s : State) (e : MemError) : (s.noteMemError e).requesting = s.requesting := rfl
@[simp] theorem State.noteMemError_active (s : State) (e : MemError) : (s.noteMemError e).active = s.active := rfl
@[simp] theorem State.noteMemError_runState (s : State) (e : MemError) : (s.noteMemError e).runState = s.runState := rfl
@[simp] theorem State.noteMemError_execDepth (s : State) (e : MemError) : (s.noteMemError e).execDepth = s.execDepth := rfl
@[simp] theorem State.noteMemError_nonint (s : State) (e : MemError) : (s.noteMemError e).nonint = s.nonint := rfl
@[simp] theorem State.noteMemError_memLock (s : State) (e : MemError) : (s.noteMemError e).memLock = s.memLock := rfl
@[simp] theorem State.noteMemError_intervalTimer (s : State) (e : MemError) : (s.noteMemError e).intervalTimer = s.intervalTimer := rfl
@[simp] theorem State.noteMemError_wcsInterlock (s : State) (e : MemError) : (s.noteMemError e).wcsInterlock = s.wcsInterlock := rfl
@[simp] theorem State.noteMemError_ipuStartPending (s : State) (e : MemError) : (s.noteMemError e).ipuStartPending = s.ipuStartPending := rfl
@[simp] theorem State.noteMemError_ipuDonePending (s : State) (e : MemError) : (s.noteMemError e).ipuDonePending = s.ipuDonePending := rfl
@[simp] theorem State.noteMemError_mem (s : State) (e : MemError) : (s.noteMemError e).mem = s.mem := rfl
@[simp] theorem State.noteMemError_instrPc (s : State) (e : MemError) : (s.noteMemError e).instrPc = s.instrPc := rfl
@[simp] theorem State.noteMemError_abandoned (s : State) (e : MemError) : (s.noteMemError e).abandoned = s.abandoned := rfl
@[simp] theorem State.noteMemError_pendingArith (s : State) (e : MemError) : (s.noteMemError e).pendingArith = s.pendingArith := rfl
@[simp] theorem State.noteMemError_pendingTimeout (s : State) (e : MemError) : (s.noteMemError e).pendingTimeout = s.pendingTimeout := rfl
@[simp] theorem State.noteMemError_pendingPower (s : State) (e : MemError) : (s.noteMemError e).pendingPower = s.pendingPower := rfl
@[simp] theorem State.noteMemError_noHalt (s : State) (e : MemError) : (s.noteMemError e).noHalt = s.noHalt := rfl
@[simp] theorem State.noteMemError_haltRequest (s : State) (e : MemError) : (s.noteMemError e).haltRequest = s.haltRequest := rfl
@[simp] theorem State.noteMemError_stepping (s : State) (e : MemError) : (s.noteMemError e).stepping = s.stepping := rfl
@[simp] theorem State.noteMemError_stopHit (s : State) (e : MemError) : (s.noteMemError e).stopHit = s.stopHit := rfl
@[simp] theorem State.noteMemError_parityBad (s : State) (e : MemError) : (s.noteMemError e).parityBad = s.parityBad := rfl
@[simp] theorem State.noteMemError_inputs (s : State) (e : MemError) : (s.noteMemError e).inputs = s.inputs := rfl
@[simp] theorem State.noteMemError_bus (s : State) (e : MemError) : (s.noteMemError e).bus = s.bus := rfl
@[simp] theorem State.noteMemError_channelOut (s : State) (e : MemError) : (s.noteMemError e).channelOut = s.channelOut := rfl
@[simp] theorem State.noteMemError_freeIx (s : State) (e : MemError) : (s.noteMemError e).freeIx = s.freeIx := rfl

@[simp] theorem State.transact_cfg (s : State) : (s.transact).cfg = s.cfg := by rw [State.transact_frame]
@[simp] theorem State.transact_regs (s : State) : (s.transact).regs = s.regs := by rw [State.transact_frame]
@[simp] theorem State.transact_mode (s : State) : (s.transact).mode = s.mode := by rw [State.transact_frame]
@[simp] theorem State.transact_priv (s : State) : (s.transact).priv = s.priv := by rw [State.transact_frame]
@[simp] theorem State.transact_cc (s : State) : (s.transact).cc = s.cc := by rw [State.transact_frame]
@[simp] theorem State.transact_ext (s : State) : (s.transact).ext = s.ext := by rw [State.transact_frame]
@[simp] theorem State.transact_hist (s : State) : (s.transact).hist = s.hist := by rw [State.transact_frame]
@[simp] theorem State.transact_aexp (s : State) : (s.transact).aexp = s.aexp := by rw [State.transact_frame]
@[simp] theorem State.transact_pc (s : State) : (s.transact).pc = s.pc := by rw [State.transact_frame]
@[simp] theorem State.transact_psd2 (s : State) : (s.transact).psd2 = s.psd2 := by rw [State.transact_frame]
@[simp] theorem State.transact_blocked (s : State) : (s.transact).blocked = s.blocked := by rw [State.transact_frame]
@[simp] theorem State.transact_blockCount (s : State) : (s.transact).blockCount = s.blockCount := by rw [State.transact_frame]
@[simp] theorem State.transact_mapped (s : State) : (s.transact).mapped = s.mapped := by rw [State.transact_frame]
@[simp] theorem State.transact_map (s : State) : (s.transact).map = s.map := by rw [State.transact_frame]
@[simp] theorem State.transact_prot (s : State) : (s.transact).prot = s.prot := by rw [State.transact_frame]
@[simp] theorem State.transact_spad (s : State) : (s.transact).spad = s.spad := by rw [State.transact_frame]
@[simp] theorem State.transact_trapsEnabled (s : State) : (s.transact).trapsEnabled = s.trapsEnabled := by rw [State.transact_frame]
@[simp] theorem State.transact_bmtoEnabled (s : State) : (s.transact).bmtoEnabled = s.bmtoEnabled := by rw [State.transact_frame]
@[simp] theorem State.transact_csw (s : State) : (s.transact).csw = s.csw := by rw [State.transact_frame]
@[simp] theorem State.transact_wcs (s : State) : (s.transact).wcs = s.wcs := by rw [State.transact_frame]
@[simp] theorem State.transact_enabled (s : State) : (s.transact).enabled = s.enabled := by rw [State.transact_frame]
@[simp] theorem State.transact_requesting (s : State) : (s.transact).requesting = s.requesting := by rw [State.transact_frame]
@[simp] theorem State.transact_active (s : State) : (s.transact).active = s.active := by rw [State.transact_frame]
@[simp] theorem State.transact_runState (s : State) : (s.transact).runState = s.runState := by rw [State.transact_frame]
@[simp] theorem State.transact_execDepth (s : State) : (s.transact).execDepth = s.execDepth := by rw [State.transact_frame]
@[simp] theorem State.transact_nonint (s : State) : (s.transact).nonint = s.nonint := by rw [State.transact_frame]
@[simp] theorem State.transact_memLock (s : State) : (s.transact).memLock = s.memLock := by rw [State.transact_frame]
@[simp] theorem State.transact_intervalTimer (s : State) : (s.transact).intervalTimer = s.intervalTimer := by rw [State.transact_frame]
@[simp] theorem State.transact_wcsInterlock (s : State) : (s.transact).wcsInterlock = s.wcsInterlock := by rw [State.transact_frame]
@[simp] theorem State.transact_ipuStartPending (s : State) : (s.transact).ipuStartPending = s.ipuStartPending := by rw [State.transact_frame]
@[simp] theorem State.transact_ipuDonePending (s : State) : (s.transact).ipuDonePending = s.ipuDonePending := by rw [State.transact_frame]
@[simp] theorem State.transact_panel (s : State) : (s.transact).panel = s.panel := by rw [State.transact_frame]
@[simp] theorem State.transact_instrPc (s : State) : (s.transact).instrPc = s.instrPc := by rw [State.transact_frame]
@[simp] theorem State.transact_abandoned (s : State) : (s.transact).abandoned = s.abandoned := by rw [State.transact_frame]
@[simp] theorem State.transact_pendingArith (s : State) : (s.transact).pendingArith = s.pendingArith := by rw [State.transact_frame]
@[simp] theorem State.transact_pendingTimeout (s : State) : (s.transact).pendingTimeout = s.pendingTimeout := by rw [State.transact_frame]
@[simp] theorem State.transact_pendingPower (s : State) : (s.transact).pendingPower = s.pendingPower := by rw [State.transact_frame]
@[simp] theorem State.transact_noHalt (s : State) : (s.transact).noHalt = s.noHalt := by rw [State.transact_frame]
@[simp] theorem State.transact_haltRequest (s : State) : (s.transact).haltRequest = s.haltRequest := by rw [State.transact_frame]
@[simp] theorem State.transact_stepping (s : State) : (s.transact).stepping = s.stepping := by rw [State.transact_frame]
@[simp] theorem State.transact_stopHit (s : State) : (s.transact).stopHit = s.stopHit := by rw [State.transact_frame]
@[simp] theorem State.transact_inputs (s : State) : (s.transact).inputs = s.inputs := by rw [State.transact_frame]
@[simp] theorem State.transact_channelOut (s : State) : (s.transact).channelOut = s.channelOut := by rw [State.transact_frame]
@[simp] theorem State.transact_freeIx (s : State) : (s.transact).freeIx = s.freeIx := by rw [State.transact_frame]

@[simp] theorem State.noteWalk_cfg (s : State) (f : Bool) (n : Word) : (s.noteWalk f n).cfg = s.cfg := rfl
@[simp] theorem State.noteWalk_regs (s : State) (f : Bool) (n : Word) : (s.noteWalk f n).regs = s.regs := rfl
@[simp] theorem State.noteWalk_mode (s : State) (f : Bool) (n : Word) : (s.noteWalk f n).mode = s.mode := rfl
@[simp] theorem State.noteWalk_priv (s : State) (f : Bool) (n : Word) : (s.noteWalk f n).priv = s.priv := rfl
@[simp] theorem State.noteWalk_cc (s : State) (f : Bool) (n : Word) : (s.noteWalk f n).cc = s.cc := rfl
@[simp] theorem State.noteWalk_ext (s : State) (f : Bool) (n : Word) : (s.noteWalk f n).ext = s.ext := rfl
@[simp] theorem State.noteWalk_hist (s : State) (f : Bool) (n : Word) : (s.noteWalk f n).hist = s.hist := rfl
@[simp] theorem State.noteWalk_aexp (s : State) (f : Bool) (n : Word) : (s.noteWalk f n).aexp = s.aexp := rfl
@[simp] theorem State.noteWalk_pc (s : State) (f : Bool) (n : Word) : (s.noteWalk f n).pc = s.pc := rfl
@[simp] theorem State.noteWalk_psd2 (s : State) (f : Bool) (n : Word) : (s.noteWalk f n).psd2 = s.psd2 := rfl
@[simp] theorem State.noteWalk_blocked (s : State) (f : Bool) (n : Word) : (s.noteWalk f n).blocked = s.blocked := rfl
@[simp] theorem State.noteWalk_blockCount (s : State) (f : Bool) (n : Word) : (s.noteWalk f n).blockCount = s.blockCount := rfl
@[simp] theorem State.noteWalk_mapped (s : State) (f : Bool) (n : Word) : (s.noteWalk f n).mapped = s.mapped := rfl
@[simp] theorem State.noteWalk_map (s : State) (f : Bool) (n : Word) : (s.noteWalk f n).map = s.map := rfl
@[simp] theorem State.noteWalk_prot (s : State) (f : Bool) (n : Word) : (s.noteWalk f n).prot = s.prot := rfl
@[simp] theorem State.noteWalk_spad (s : State) (f : Bool) (n : Word) : (s.noteWalk f n).spad = s.spad := rfl
@[simp] theorem State.noteWalk_trapsEnabled (s : State) (f : Bool) (n : Word) : (s.noteWalk f n).trapsEnabled = s.trapsEnabled := rfl
@[simp] theorem State.noteWalk_bmtoEnabled (s : State) (f : Bool) (n : Word) : (s.noteWalk f n).bmtoEnabled = s.bmtoEnabled := rfl
@[simp] theorem State.noteWalk_csw (s : State) (f : Bool) (n : Word) : (s.noteWalk f n).csw = s.csw := rfl
@[simp] theorem State.noteWalk_wcs (s : State) (f : Bool) (n : Word) : (s.noteWalk f n).wcs = s.wcs := rfl
@[simp] theorem State.noteWalk_enabled (s : State) (f : Bool) (n : Word) : (s.noteWalk f n).enabled = s.enabled := rfl
@[simp] theorem State.noteWalk_requesting (s : State) (f : Bool) (n : Word) : (s.noteWalk f n).requesting = s.requesting := rfl
@[simp] theorem State.noteWalk_active (s : State) (f : Bool) (n : Word) : (s.noteWalk f n).active = s.active := rfl
@[simp] theorem State.noteWalk_runState (s : State) (f : Bool) (n : Word) : (s.noteWalk f n).runState = s.runState := rfl
@[simp] theorem State.noteWalk_execDepth (s : State) (f : Bool) (n : Word) : (s.noteWalk f n).execDepth = s.execDepth := rfl
@[simp] theorem State.noteWalk_nonint (s : State) (f : Bool) (n : Word) : (s.noteWalk f n).nonint = s.nonint := rfl
@[simp] theorem State.noteWalk_memLock (s : State) (f : Bool) (n : Word) : (s.noteWalk f n).memLock = s.memLock := rfl
@[simp] theorem State.noteWalk_intervalTimer (s : State) (f : Bool) (n : Word) : (s.noteWalk f n).intervalTimer = s.intervalTimer := rfl
@[simp] theorem State.noteWalk_wcsInterlock (s : State) (f : Bool) (n : Word) : (s.noteWalk f n).wcsInterlock = s.wcsInterlock := rfl
@[simp] theorem State.noteWalk_ipuStartPending (s : State) (f : Bool) (n : Word) : (s.noteWalk f n).ipuStartPending = s.ipuStartPending := rfl
@[simp] theorem State.noteWalk_ipuDonePending (s : State) (f : Bool) (n : Word) : (s.noteWalk f n).ipuDonePending = s.ipuDonePending := rfl
@[simp] theorem State.noteWalk_mem (s : State) (f : Bool) (n : Word) : (s.noteWalk f n).mem = s.mem := rfl
@[simp] theorem State.noteWalk_panel (s : State) (f : Bool) (n : Word) : (s.noteWalk f n).panel = s.panel := rfl
@[simp] theorem State.noteWalk_instrPc (s : State) (f : Bool) (n : Word) : (s.noteWalk f n).instrPc = s.instrPc := rfl
@[simp] theorem State.noteWalk_abandoned (s : State) (f : Bool) (n : Word) : (s.noteWalk f n).abandoned = s.abandoned := rfl
@[simp] theorem State.noteWalk_pendingArith (s : State) (f : Bool) (n : Word) : (s.noteWalk f n).pendingArith = s.pendingArith := rfl
@[simp] theorem State.noteWalk_pendingTimeout (s : State) (f : Bool) (n : Word) : (s.noteWalk f n).pendingTimeout = s.pendingTimeout := rfl
@[simp] theorem State.noteWalk_pendingPower (s : State) (f : Bool) (n : Word) : (s.noteWalk f n).pendingPower = s.pendingPower := rfl
@[simp] theorem State.noteWalk_noHalt (s : State) (f : Bool) (n : Word) : (s.noteWalk f n).noHalt = s.noHalt := rfl
@[simp] theorem State.noteWalk_haltRequest (s : State) (f : Bool) (n : Word) : (s.noteWalk f n).haltRequest = s.haltRequest := rfl
@[simp] theorem State.noteWalk_stepping (s : State) (f : Bool) (n : Word) : (s.noteWalk f n).stepping = s.stepping := rfl
@[simp] theorem State.noteWalk_parityBad (s : State) (f : Bool) (n : Word) : (s.noteWalk f n).parityBad = s.parityBad := rfl
@[simp] theorem State.noteWalk_inputs (s : State) (f : Bool) (n : Word) : (s.noteWalk f n).inputs = s.inputs := rfl
@[simp] theorem State.noteWalk_bus (s : State) (f : Bool) (n : Word) : (s.noteWalk f n).bus = s.bus := rfl
@[simp] theorem State.noteWalk_channelOut (s : State) (f : Bool) (n : Word) : (s.noteWalk f n).channelOut = s.channelOut := rfl
@[simp] theorem State.noteWalk_freeIx (s : State) (f : Bool) (n : Word) : (s.noteWalk f n).freeIx = s.freeIx := rfl

@[simp] theorem State.setCc_cc (s : State) (v : BitVec 4) : (s.setCc v).cc = v := rfl
@[simp] theorem State.setCc_reg (s : State) (v : BitVec 4) (r : Reg) : (s.setCc v).reg r = s.reg r := rfl
@[simp] theorem State.noteRead_reg (s : State) (a : Addr) (r : Reg) : (s.noteRead a).reg r = s.reg r := rfl
@[simp] theorem State.noteWrite_reg (s : State) (a : Addr) (r : Reg) : (s.noteWrite a).reg r = s.reg r := rfl
@[simp] theorem State.poke8_reg (s : State) (a : Addr) (b : Byte) (r : Reg) : (s.poke8 a b).reg r = s.reg r := rfl
@[simp] theorem State.poke16_reg (s : State) (a : Addr) (v : Half) (r : Reg) : (s.poke16 a v).reg r = s.reg r := by
  simp only [State.reg, State.poke16_regs]
@[simp] theorem State.poke32_reg (s : State) (a : Addr) (v : Word) (r : Reg) : (s.poke32 a v).reg r = s.reg r := by
  simp only [State.reg, State.poke32_regs]
@[simp] theorem State.transact_reg (s : State) (r : Reg) : s.transact.reg r = s.reg r := by
  simp only [State.reg, State.transact_regs]
@[simp] theorem State.arithException_reg (s : State) (e : Bool) (r : Reg) : (s.arithException e).reg r = s.reg r := rfl
@[simp] theorem State.arithException_pendingArith (s : State) (e : Bool) :
    (s.arithException e).pendingArith = (s.pendingArith || s.arithDue e) := rfl
@[simp] theorem State.arithException_spad (s : State) (e : Bool) : (s.arithException e).spad =
    if s.arithDue e && decide (s.cfg.role = .ipu) then s.spad.set 0x91 (s.status ||| statusBit 23) else s.spad := rfl
@[simp] theorem State.jump_pc (s : State) (a : Addr) : (s.jump a).pc = a.extractLsb' 1 18 := rfl
@[simp] theorem State.setBlocked_blocked (s : State) (b : Bool) : (s.setBlocked b).blocked = b := rfl
@[simp] theorem State.advance_pc (s : State) (n : BitVec 18) : (s.advance n).pc = s.pc + n := rfl
@[simp] theorem State.advance_hist (s : State) (n : BitVec 18) : (s.advance n).hist = s.pc.getLsbD 0 := rfl
@[simp] theorem State.abandon_abandoned (s : State) (t : Trap) : (s.abandon t).abandoned = true := rfl
@[simp] theorem State.setPsd_psd2 (s : State) (m n : Word) : (s.setPsd m n).psd2 = n &&& 0xFFFE3FFF := rfl
@[simp] theorem State.setPsd_mapped (s : State) (m n : Word) : (s.setPsd m n).mapped = psdMapped n := rfl

/-- A register reads what was last written to it. -/
@[simp] theorem State.setReg_reg (s : State) (r : Reg) (v : Word) : (s.setReg r v).reg r = v := by
  simp [State.setReg, State.reg]

/-- Writing one register leaves the others. -/
theorem State.setReg_reg_ne (s : State) (r q : Reg) (v : Word) (h : q ≠ r) : (s.setReg r v).reg q = s.reg q := by
  have h' : r.toNat ≠ q.toNat := fun e => h (BitVec.eq_of_toNat_eq e.symm)
  simp [State.setReg, State.reg, Vector.getElem_set_ne, h']

end Sys2Proof.Machine
end

