-- ==== Sys2Proof/Laws/Memory.lean ====
section
/-! SUPPORT. Memory as data: every write keeps the canonical form; reset has it. -/

namespace Sys2Proof.Machine

theorem Memory.wfFrom_mono {lo lo' : Nat} (h : lo' ≤ lo) : ∀ {m : List Host.Cell}, Memory.wfFrom lo m = true →
    Memory.wfFrom lo' m = true
  | [], _ => rfl
  | (k, v) :: t, hm => by
    simp only [Memory.wfFrom, Bool.and_eq_true, decide_eq_true_eq] at hm ⊢
    exact ⟨⟨⟨Nat.le_trans h hm.1.1.1, hm.1.1.2⟩, hm.1.2⟩, hm.2⟩

/-- A write keeps the canonical form above any bound it respects. -/
theorem Memory.write_wfFrom {lo a : Nat} {b : Byte} (hlo : lo ≤ a) (ha : a < 2 ^ 24) :
    ∀ {m : List Host.Cell}, Memory.wfFrom lo m = true → Memory.wfFrom lo (Memory.write m a b) = true
  | [], _ => by
    by_cases hb : b = 0
    · simp [Memory.write, hb, Memory.wfFrom]
    · simp only [Memory.write, hb, if_false, Memory.wfFrom, Bool.and_eq_true, decide_eq_true_eq]
      exact ⟨⟨⟨hlo, ha⟩, hb⟩, trivial⟩
  | (k, v) :: t, hm => by
    have hm0 := hm
    simp only [Memory.wfFrom, Bool.and_eq_true, decide_eq_true_eq] at hm
    obtain ⟨⟨⟨h1, h2⟩, h3⟩, h4⟩ := hm
    unfold Memory.write
    split
    · subst_vars
      split
      · exact Memory.wfFrom_mono (Nat.le_succ_of_le h1) h4
      · rename_i hb
        simp only [Memory.wfFrom, Bool.and_eq_true, decide_eq_true_eq]
        exact ⟨⟨⟨h1, h2⟩, hb⟩, h4⟩
    · split
      · rename_i hlt
        split
        · exact hm0
        · rename_i hb
          simp only [Memory.wfFrom, Bool.and_eq_true, decide_eq_true_eq]
          exact ⟨⟨⟨hlo, ha⟩, hb⟩, ⟨⟨⟨hlt, h2⟩, h3⟩, h4⟩⟩
      · rename_i hne hnlt
        simp only [Memory.wfFrom, Bool.and_eq_true, decide_eq_true_eq]
        exact ⟨⟨⟨h1, h2⟩, h3⟩, Memory.write_wfFrom (by omega) ha h4⟩

/-- A write keeps the canonical form. -/
theorem Memory.write_wf {m : List Host.Cell} {a : Addr} {b : Byte} (h : Memory.wf m = true) :
    Memory.wf (Memory.write m a.toNat b) = true := Memory.write_wfFrom (Nat.zero_le _) a.isLt h

/-- Nothing is listed below the bound. -/
theorem Memory.read_below {lo a : Nat} (ha : a < lo) : ∀ {m : List Host.Cell}, Memory.wfFrom lo m = true → Memory.read m a = 0
  | [], _ => rfl
  | (k, v) :: t, hm => by
    simp only [Memory.wfFrom, Bool.and_eq_true, decide_eq_true_eq] at hm
    have hk : lo ≤ k := hm.1.1.1
    simp only [Memory.read, if_neg (by omega : ¬a = k), if_pos (by omega : a < k)]

/-- A read after a write: the value written at its place, every other place as before. -/
theorem Memory.read_writeFrom {lo a x : Nat} {b : Byte} : ∀ {m : List Host.Cell}, Memory.wfFrom lo m = true →
    Memory.read (Memory.write m a b) x = if x = a then b else Memory.read m x
  | [], _ => by
    by_cases hb : b = 0
    · simp [Memory.write, Memory.read, hb]
    · rw [Memory.write, if_neg hb]
      by_cases hx : x = a
      · simp [Memory.read, hx]
      · simp [Memory.read, hx]
  | (k, v) :: t, hm => by
    simp only [Memory.wfFrom, Bool.and_eq_true, decide_eq_true_eq] at hm
    have ht := hm.2
    unfold Memory.write
    split
    · subst_vars
      split
      · subst_vars
        by_cases hx : x = k
        · rw [if_pos hx, hx, Memory.read_below (Nat.lt_succ_self k) ht]
        · rw [if_neg hx, Memory.read, if_neg hx]
          split
          · exact Memory.read_below (by omega) ht
          · rfl
      · by_cases hx : x = k
        · simp only [Memory.read, if_pos hx]
        · simp only [Memory.read, if_neg hx]
    · split
      · rename_i hne hlt
        split
        · rename_i hb
          by_cases hx : x = a
          · rw [if_pos hx, hx, Memory.read, if_neg hne, if_pos hlt, hb]
          · rw [if_neg hx]
        · by_cases hx : x = a
          · simp only [Memory.read, if_pos hx]
          · rw [if_neg hx, Memory.read, if_neg hx]
            split
            · rw [Memory.read, if_neg (by omega), if_pos (by omega)]
            · rfl
      · rename_i hne hnlt
        rw [Memory.read, Memory.read_writeFrom ht]
        by_cases hx : x = k
        · rw [if_pos hx, if_neg (by omega), Memory.read, if_pos hx]
        · rw [if_neg hx, Memory.read, if_neg hx]
          by_cases hxa : x = a
          · rw [if_pos hxa, if_pos hxa, if_neg (by omega)]
          · rw [if_neg hxa, if_neg hxa]

/-- A read after a write of canonical memory. -/
theorem Memory.read_write {m : List Host.Cell} {a x : Nat} {b : Byte} (h : Memory.wf m = true) :
    Memory.read (Memory.write m a b) x = if x = a then b else Memory.read m x := Memory.read_writeFrom h

theorem State.poke8_wf {s : State} {a : Addr} {b : Byte} (h : Memory.wf s.mem = true) :
    Memory.wf (s.poke8 a b).mem = true := Memory.write_wf h

theorem State.poke16_wf {s : State} {a : Addr} {v : Half} (h : Memory.wf s.mem = true) :
    Memory.wf (s.poke16 a v).mem = true := State.poke8_wf (State.poke8_wf h)

theorem State.poke32_wf {s : State} {a : Addr} {v : Word} (h : Memory.wf s.mem = true) :
    Memory.wf (s.poke32 a v).mem = true := State.poke16_wf (State.poke16_wf h)

theorem State.busWrites_wf : ∀ {l : List (Addr × Byte)} {s : State}, Memory.wf s.mem = true → Memory.wf (s.busWrites l).mem = true
  | [], _, h => h
  | (a, b) :: l, s, h => by
    refine State.busWrites_wf (l := l) (s := s.busWrite a b) ?_
    unfold State.busWrite
    split
    · exact State.poke8_wf h
    · exact h

/-- Memories in the canonical form that read the same are the same. -/
theorem Memory.ext_from : ∀ {lo : Nat} {m m' : List Host.Cell}, Memory.wfFrom lo m = true → Memory.wfFrom lo m' = true →
    (∀ x, Memory.read m x = Memory.read m' x) → m = m'
  | _, [], [], _, _, _ => rfl
  | _, [], (k, v) :: t, _, h', h => by
    simp only [Memory.wfFrom, Bool.and_eq_true, decide_eq_true_eq] at h'
    exact absurd (by simpa [Memory.read] using (h k).symm) h'.1.2
  | _, (k, v) :: t, [], h', _, h => by
    simp only [Memory.wfFrom, Bool.and_eq_true, decide_eq_true_eq] at h'
    exact absurd (by simpa [Memory.read] using h k) h'.1.2
  | _, (k, v) :: t, (k', v') :: t', hm, hm', h => by
    simp only [Memory.wfFrom, Bool.and_eq_true, decide_eq_true_eq] at hm hm'
    have hk : k = k' := by
      rcases Nat.lt_trichotomy k k' with hlt | he | hgt
      · exact absurd (by simpa [Memory.read, hlt, Nat.ne_of_lt hlt] using h k) hm.1.2
      · exact he
      · exact absurd (by simpa [Memory.read, hgt, Nat.ne_of_lt hgt] using (h k').symm) hm'.1.2
    subst hk
    have hv : v = v' := by simpa [Memory.read] using h k
    subst hv
    refine congrArg _ (Memory.ext_from hm.2 hm'.2 fun x => ?_)
    by_cases hx : x < k + 1
    · rw [Memory.read_below hx hm.2, Memory.read_below hx hm'.2]
    · have e := h x
      rwa [Memory.read, if_neg (by omega), if_neg (by omega), Memory.read, if_neg (by omega), if_neg (by omega)] at e

theorem Memory.ext {m m' : List Host.Cell} (h : Memory.wf m = true) (h' : Memory.wf m' = true)
    (e : ∀ x, Memory.read m x = Memory.read m' x) : m = m' := Memory.ext_from h h' e

/-- An operation that only overwrites bytes of memory, the same ones with the same values in every state. -/
def Overwrites (c : Config) (k : State → State) : Prop :=
  ∃ (f : Nat → Option Byte) (p : Nat → Bool), ∀ s : State, s.cfg = c → Memory.wf s.mem = true →
    (∃ m, k s = { s with mem := m, parityBad := s.parityBad.filter p }) ∧ Memory.wf (k s).mem = true ∧
    ∀ x, Memory.read (k s).mem x = (f x).getD (Memory.read s.mem x)

theorem Overwrites.id (c : Config) : Overwrites c fun s => s :=
  ⟨fun _ => none, fun _ => true, fun s _ h => ⟨⟨s.mem, by simp⟩, h, fun _ => rfl⟩⟩

theorem Overwrites.comp {c : Config} {k l : State → State} : Overwrites c k → Overwrites c l → Overwrites c fun s => l (k s) := by
  rintro ⟨f, p, hk⟩ ⟨g, q, hl⟩
  refine ⟨fun x => (g x).or (f x), fun x => p x && q x, fun s hc hm => ?_⟩
  obtain ⟨⟨m, e⟩, w, r⟩ := hk s hc hm
  obtain ⟨⟨m', e'⟩, w', r'⟩ := hl (k s) (by rw [e]; exact hc) w
  refine ⟨⟨m', by show l (k s) = _; rw [e', e]; simp only [List.filter_filter, Bool.and_comm]⟩, w', fun x => ?_⟩
  show Memory.read (l (k s)).mem x = _
  rw [r' x, r x]
  show _ = ((g x).or (f x)).getD _
  cases g x <;> simp

theorem Overwrites.poke8 (c : Config) (a : Addr) (b : Byte) : Overwrites c fun s => s.poke8 a b := by
  refine ⟨fun x => if x = a.toNat then some b else none, fun x => decide (x ≠ a.toNat), fun s _ hm => ?_⟩
  refine ⟨⟨_, rfl⟩, State.poke8_wf hm, fun x => (Memory.read_write hm).trans ?_⟩
  by_cases h : x = a.toNat
  · simp [h]
  · simp [h]

theorem Overwrites.poke32 (c : Config) (a : Addr) (v : Word) : Overwrites c fun s => s.poke32 a v :=
  (((Overwrites.poke8 c _ _).comp (Overwrites.poke8 c _ _)).comp (Overwrites.poke8 c _ _)).comp (Overwrites.poke8 c _ _)

theorem Overwrites.busWrites (c : Config) : ∀ l : List (Addr × Byte), Overwrites c fun s => s.busWrites l
  | [] => Overwrites.id c
  | (a, b) :: l => by
    by_cases hp : Config.presentAt c a.toNat = true
    · obtain ⟨f, p, h⟩ := (Overwrites.poke8 c a b).comp (Overwrites.busWrites c l)
      refine ⟨f, p, fun s hc => ?_⟩
      have e : s.busWrites ((a, b) :: l) = (s.poke8 a b).busWrites l := by
        show (s.busWrite a b).busWrites l = _
        rw [State.busWrite, hc, if_pos hp]
      beta_reduce
      rw [e]
      exact h s hc
    · obtain ⟨f, p, h⟩ := Overwrites.busWrites c l
      refine ⟨f, p, fun s hc => ?_⟩
      have e : s.busWrites ((a, b) :: l) = s.busWrites l := by
        show (s.busWrite a b).busWrites l = _
        rw [State.busWrite, hc, if_neg hp]
      beta_reduce
      rw [e]
      exact h s hc

/-- What is overwritten before and again after another overwriting is as it is after it alone: a bus agent's write
that a locked word made wait is applied after the word's write, wherever else it was applied before (20_memory.md
R120; log 26). -/
theorem Overwrites.again {c : Config} {k l : State → State} (hk : Overwrites c k) (hl : Overwrites c l) {s : State} (hc : s.cfg = c)
    (hm : Memory.wf s.mem = true) : l (k (l s)) = l (k s) := by
  obtain ⟨f, p, h1⟩ := hk
  obtain ⟨g, q, h2⟩ := hl
  obtain ⟨⟨m1, e1⟩, w1, r1⟩ := h2 s hc hm
  obtain ⟨⟨m2, e2⟩, w2, r2⟩ := h1 (l s) (by rw [e1]; exact hc) w1
  obtain ⟨⟨m3, e3⟩, w3, r3⟩ := h2 (k (l s)) (by rw [e2, e1]; exact hc) w2
  obtain ⟨⟨n1, d1⟩, v1, t1⟩ := h1 s hc hm
  obtain ⟨⟨n2, d2⟩, v2, t2⟩ := h2 (k s) (by rw [d1]; exact hc) v1
  have hmem : (l (k (l s))).mem = (l (k s)).mem := Memory.ext w3 v2 fun x => by
    rw [r3 x, r2 x, r1 x, t2 x, t1 x]
    cases g x <;> rfl
  have e : m3 = n2 := by rw [e3, d2] at hmem; exact hmem
  rw [e3, d2, e2, e1, d1, e]
  simp only [List.filter_filter]
  congr 2
  funext x
  cases p x <;> cases q x <;> rfl

/-- The same for a word the processor writes. -/
theorem State.busWrites_again {s : State} {a : Addr} {v : Word} {l : List (Addr × Byte)} (hm : Memory.wf s.mem = true) :
    ((s.busWrites l).poke32 a v).busWrites l = (s.poke32 a v).busWrites l :=
  (Overwrites.poke32 s.cfg a v).again (Overwrites.busWrites s.cfg l) rfl hm

/-- What bus agents write keeps the canonical form. -/
theorem State.transact_wf {s : State} (h : Memory.wf s.mem = true) : Memory.wf s.transact.mem = true := by
  unfold State.transact
  split
  · exact h
  · split
    · exact h
    · exact State.busWrites_wf h

theorem State.realWrite_wf {s t : State} {a : Addr} {v : Word} (h : Memory.wf s.mem = true)
    (e : s.realWrite a v = .ok t) : Memory.wf t.mem = true := by
  unfold State.realWrite at e
  split at e
  · cases e; exact State.poke32_wf h
  · cases e

theorem State.realWriteOrLose_wf {s : State} {a : Addr} {v : Word} (h : Memory.wf s.mem = true) :
    Memory.wf (s.realWriteOrLose a v).mem = true := by
  unfold State.realWriteOrLose
  split
  · exact State.poke32_wf h
  · exact h

theorem State.pokeAll_wf : ∀ {l : List (Addr × Byte)} {s : State}, Memory.wf s.mem = true →
    Memory.wf (State.pokeAll l s).mem = true
  | [], _, h => h
  | (a, b) :: t, _, h => State.pokeAll_wf (l := t) (State.poke8_wf (a := a) (b := b) h)

theorem State.placeBytes_wf : ∀ {l : List Byte} {a : Addr} {s : State}, Memory.wf s.mem = true →
    Memory.wf (State.placeBytes l a s).mem = true
  | [], _, _, h => h
  | b :: t, a, _, h => State.placeBytes_wf (l := t) (State.poke8_wf (a := a) (b := b) h)

theorem State.store8_wf {s t : State} {a : Addr} {v : Byte} {u : Unit} (h : Memory.wf s.mem = true)
    (e : s.store8 a v = .ok u t) : Memory.wf t.mem = true := by
  unfold State.store8 at e
  simp only at e
  split at e
  · cases e
  · cases e; rw [State.noteWrite_mem]; exact State.poke8_wf (State.transact_wf h)

theorem State.store16_wf {s t : State} {a : Addr} {v : Half} {u : Unit} (h : Memory.wf s.mem = true)
    (e : s.store16 a v = .ok u t) : Memory.wf t.mem = true := by
  unfold State.store16 at e
  simp only at e
  split at e
  · cases e
  · cases e; rw [State.noteWrite_mem]; exact State.poke16_wf (State.transact_wf h)

theorem State.store32_wf {s t : State} {a : Addr} {v : Word} {u : Unit} (h : Memory.wf s.mem = true)
    (e : s.store32 a v = .ok u t) : Memory.wf t.mem = true := by
  unfold State.store32 at e
  simp only at e
  split at e
  · cases e
  · cases e; rw [State.noteWrite_mem]; exact State.poke32_wf (State.transact_wf h)

/-- A word that does not hold the byte written reads as before. -/
theorem State.realRead_poke8_ne {s : State} {x a : Addr} {b : Byte} {w : Word} (hm : Memory.wf s.mem = true)
    (h0 : x ≠ a) (h1 : x + 1 ≠ a) (h2 : x + 2 ≠ a) (h3 : x + 2 + 1 ≠ a) (h : s.realRead x = .ok w) :
    (s.poke8 a b).realRead x = .ok w := by
  have read {y : Addr} (hy : y ≠ a) : Memory.read (s.poke8 a b).mem y.toNat = Memory.read s.mem y.toNat := by
    show Memory.read (Memory.write s.mem a.toNat b) y.toNat = _
    rw [Memory.read_write hm, if_neg fun e => hy (BitVec.eq_of_toNat_eq e)]
  have sub (n : Nat) (y : Addr) (hp : s.parityAt y n = false) : (s.poke8 a b).parityAt y n = false := by
    induction n generalizing y with
    | zero => rfl
    | succ n ih =>
      simp only [State.parityAt, Bool.or_eq_false_iff] at hp ⊢
      refine ⟨?_, ih _ hp.2⟩
      simp only [State.poke8, List.contains_eq_mem, List.mem_filter, decide_eq_false_iff_not] at hp ⊢
      exact fun e => hp.1 e.1
  have here (n : Nat) (y : Addr) : (s.poke8 a b).present y n = s.present y n := by
    induction n generalizing y with
    | zero => rfl
    | succ n ih => simp only [State.present, ih]; rfl
  unfold State.realRead at h ⊢
  rw [here]
  split at h
  · cases h
  · split at h
    · cases h
    · rename_i g1 g2
      rw [if_neg g1, if_neg (by rw [sub 4 x (by simpa using g2)]; decide)]
      rw [← h]
      simp only [Memory.read32, Memory.read16, read h0, read h1, read h2, read h3]

/-- A word apart from the word written reads as before. -/
theorem State.realRead_poke32_ne {s : State} {x a : Addr} {v w : Word} (hm : Memory.wf s.mem = true)
    (hd : ∀ j k : BitVec 24, j < 4 → k < 4 → x + k ≠ a + j) (h : s.realRead x = .ok w) :
    (s.poke32 a v).realRead x = .ok w := by
  have e (j : BitVec 24) (hj : j < 4) (y : Addr) (hy : y = a + j) :
      x ≠ y ∧ x + 1 ≠ y ∧ x + 2 ≠ y ∧ x + 2 + 1 ≠ y := by
    subst hy
    exact ⟨by simpa using hd j 0 hj (by decide), hd j 1 hj (by decide), hd j 2 hj (by decide),
      by rw [BitVec.add_assoc]; exact hd j 3 hj (by decide)⟩
  unfold State.poke32 State.poke16
  obtain ⟨a0, a1, a2, a3⟩ := e 0 (by decide) a (by simp)
  obtain ⟨b0, b1, b2, b3⟩ := e 1 (by decide) (a + 1) rfl
  obtain ⟨c0, c1, c2, c3⟩ := e 2 (by decide) (a + 2) rfl
  obtain ⟨d0, d1, d2, d3⟩ := e 3 (by decide) (a + 2 + 1) (by rw [BitVec.add_assoc]; rfl)
  exact State.realRead_poke8_ne (State.poke8_wf (State.poke8_wf (State.poke8_wf hm))) d0 d1 d2 d3
    (State.realRead_poke8_ne (State.poke8_wf (State.poke8_wf hm)) c0 c1 c2 c3
      (State.realRead_poke8_ne (State.poke8_wf hm) b0 b1 b2 b3 (State.realRead_poke8_ne hm a0 a1 a2 a3 h)))

/-- The same for a word that may be lost. -/
theorem State.realRead_realWriteOrLose_ne {s : State} {x a : Addr} {v w : Word} (hm : Memory.wf s.mem = true)
    (hd : ∀ j k : BitVec 24, j < 4 → k < 4 → x + k ≠ a + j) (h : s.realRead x = .ok w) :
    (s.realWriteOrLose a v).realRead x = .ok w := by
  unfold State.realWriteOrLose
  split
  · exact State.realRead_poke32_ne hm hd h
  · exact h

theorem State.reset_wf : Memory.wf State.reset.mem = true := rfl

end Sys2Proof.Machine
end

