-- ==== Sys2Proof/Laws/Ops.lean ====
section
/-! SUPPORT. For each shared operation, everything it can do, once. -/

namespace Sys2Proof.Machine

@[simp] theorem Res.finish_ok {α : Type} (a : α) (s : State) (k : α → State → Outcome) :
    (Res.ok a s).finish k = k a s := rfl

@[simp] theorem Res.finish_trap {α : Type} (t : Trap) (s : State) (k : α → State → Outcome) :
    (Res.trap t s : Res α).finish k = raise t s := rfl

@[simp] theorem Res.finish_stuck {α : Type} (f : Fault) (k : α → State → Outcome) :
    (Res.stuck f : Res α).finish k = .fault f := rfl

@[simp] theorem Res.bind_ok {α β : Type} (a : α) (s : State) (k : α → State → Res β) : (Res.ok a s).bind k = k a s := rfl

/-- An operation after another succeeds only if both do. -/
theorem Res.bind_eq_ok {α β : Type} {x : Res α} {k : α → State → Res β} {b : β} {t : State} (h : x.bind k = .ok b t) :
    ∃ a s, x = .ok a s ∧ k a s = .ok b t := by
  cases x with
  | ok a s => exact ⟨a, s, rfl, h⟩
  | trap _ _ => cases h
  | stuck _ => cases h

/-! ## Locating -/

/-- A located access: its translation, and the checks it passed (20_memory.md R114). -/
theorem State.locate_ok {s : State} {k : Access} {la : Addr} {n : Nat} {pa : Addr} (h : s.locate k la n = .ok pa) :
    s.translate la = some pa ∧ ¬(k = .write ∧ s.writeProtected la = true) ∧ s.present pa n = true ∧
      ¬(k ≠ .write ∧ s.parityAt pa n = true) := by
  unfold State.locate at h
  split at h
  · cases h
  · rename_i p hp
    split at h
    · cases h
    · rename_i h1
      split at h
      · cases h
      · rename_i h2
        split at h
        · cases h
        · rename_i h3
          cases h
          exact ⟨hp, h1, by simpa using h2, h3⟩

/-! ## Loads and stores, each after what the bus agents do before it -/

theorem State.load8_ok {s t : State} {la : Addr} {v : Byte} (h : s.load8 la = .ok v t) :
    ∃ pa, s.transact.locate .read la 1 = .ok pa ∧ v = Memory.read s.transact.mem pa.toNat ∧ t = s.transact.noteRead pa := by
  unfold State.load8 at h
  simp only at h
  split at h
  · cases h
  · rename_i pa hp; cases h; exact ⟨pa, hp, rfl, rfl⟩

theorem State.load16_ok {s t : State} {la : Addr} {v : Half} (h : s.load16 la = .ok v t) :
    ∃ pa, s.transact.locate .read la 2 = .ok pa ∧ v = Memory.read16 s.transact.mem pa ∧ t = s.transact.noteRead pa := by
  unfold State.load16 at h
  simp only at h
  split at h
  · cases h
  · rename_i pa hp; cases h; exact ⟨pa, hp, rfl, rfl⟩

theorem State.load32_ok {s t : State} {la : Addr} {v : Word} (h : s.load32 la = .ok v t) :
    ∃ pa, s.transact.locate .read la 4 = .ok pa ∧ v = Memory.read32 s.transact.mem pa ∧ t = s.transact.noteRead pa := by
  unfold State.load32 at h
  simp only at h
  split at h
  · cases h
  · rename_i pa hp; cases h; exact ⟨pa, hp, rfl, rfl⟩

theorem State.load8_eq {s : State} {la pa : Addr} (h : s.transact.locate .read la 1 = .ok pa) :
    s.load8 la = .ok (Memory.read s.transact.mem pa.toNat) (s.transact.noteRead pa) := by
  unfold State.load8; simp only [h]

theorem State.load8_error {s : State} {la : Addr} {t : Trap} (h : s.transact.locate .read la 1 = .error t) :
    s.load8 la = .trap t s.transact := by
  unfold State.load8; simp only [h]

theorem State.load16_eq {s : State} {la pa : Addr} (h : s.transact.locate .read la 2 = .ok pa) :
    s.load16 la = .ok (Memory.read16 s.transact.mem pa) (s.transact.noteRead pa) := by
  unfold State.load16; simp only [h]

theorem State.load16_error {s : State} {la : Addr} {t : Trap} (h : s.transact.locate .read la 2 = .error t) :
    s.load16 la = .trap t s.transact := by
  unfold State.load16; simp only [h]

theorem State.load32_eq {s : State} {la pa : Addr} (h : s.transact.locate .read la 4 = .ok pa) :
    s.load32 la = .ok (Memory.read32 s.transact.mem pa) (s.transact.noteRead pa) := by
  unfold State.load32; simp only [h]

theorem State.load32_error {s : State} {la : Addr} {t : Trap} (h : s.transact.locate .read la 4 = .error t) :
    s.load32 la = .trap t s.transact := by
  unfold State.load32; simp only [h]

theorem State.store8_ok {s t : State} {la : Addr} {v : Byte} {u : Unit} (h : s.store8 la v = .ok u t) :
    ∃ pa, s.transact.locate .write la 1 = .ok pa ∧ t = (s.transact.poke8 pa v).noteWrite pa := by
  unfold State.store8 at h
  simp only at h
  split at h
  · cases h
  · rename_i pa hp; cases h; exact ⟨pa, hp, rfl⟩

theorem State.store8_eq {s : State} {la pa : Addr} {v : Byte} (h : s.transact.locate .write la 1 = .ok pa) :
    s.store8 la v = .ok () ((s.transact.poke8 pa v).noteWrite pa) := by
  unfold State.store8; simp only [h]

theorem State.store8_error {s : State} {la : Addr} {v : Byte} {t : Trap}
    (h : s.transact.locate .write la 1 = .error t) : s.store8 la v = .trap t s.transact := by
  unfold State.store8; simp only [h]

theorem State.store16_ok {s t : State} {la : Addr} {v : Half} {u : Unit} (h : s.store16 la v = .ok u t) :
    ∃ pa, s.transact.locate .write la 2 = .ok pa ∧ t = (s.transact.poke16 pa v).noteWrite pa := by
  unfold State.store16 at h
  simp only at h
  split at h
  · cases h
  · rename_i pa hp; cases h; exact ⟨pa, hp, rfl⟩

theorem State.store16_eq {s : State} {la pa : Addr} {v : Half} (h : s.transact.locate .write la 2 = .ok pa) :
    s.store16 la v = .ok () ((s.transact.poke16 pa v).noteWrite pa) := by
  unfold State.store16; simp only [h]

theorem State.store16_error {s : State} {la : Addr} {v : Half} {t : Trap}
    (h : s.transact.locate .write la 2 = .error t) : s.store16 la v = .trap t s.transact := by
  unfold State.store16; simp only [h]

theorem State.store32_ok {s t : State} {la : Addr} {v : Word} {u : Unit} (h : s.store32 la v = .ok u t) :
    ∃ pa, s.transact.locate .write la 4 = .ok pa ∧ t = (s.transact.poke32 pa v).noteWrite pa := by
  unfold State.store32 at h
  simp only at h
  split at h
  · cases h
  · rename_i pa hp; cases h; exact ⟨pa, hp, rfl⟩

theorem State.store32_eq {s : State} {la pa : Addr} {v : Word} (h : s.transact.locate .write la 4 = .ok pa) :
    s.store32 la v = .ok () ((s.transact.poke32 pa v).noteWrite pa) := by
  unfold State.store32; simp only [h]

theorem State.store32_error {s : State} {la : Addr} {v : Word} {t : Trap}
    (h : s.transact.locate .write la 4 = .error t) : s.store32 la v = .trap t s.transact := by
  unfold State.store32; simp only [h]

/-! ## Addressing -/

/-- Addressing changes nothing but the operand-stop match, and what bus agents change before its reads (20_memory.md
R90). -/
theorem State.addressLoop_frame : ∀ {n : Nat} {w : Word} {s t : State} {e : Effective},
    State.addressLoop n w s = .ok e t →
      ∃ hit m p b, t = { s with stopHit := hit, mem := m, parityBad := p, bus := b }
  | 0, _, _, _, _, h => by cases h
  | n + 1, w, s, t, e, h => by
    unfold State.addressLoop at h
    split at h
    · obtain ⟨w', s', h1, h2⟩ := Res.bind_eq_ok h
      obtain ⟨pa, _, _, rfl⟩ := State.load32_ok h1
      obtain ⟨hit, m, p, b, rfl⟩ := State.addressLoop_frame h2
      exact ⟨hit, m, p, b, by rw [State.transact_frame]; rfl⟩
    · cases h; exact ⟨_, _, _, _, rfl⟩

/-- With no bus agent's write to come, addressing changes the operand-stop match alone. -/
theorem State.addressLoop_alone : ∀ {n : Nat} {w : Word} {s t : State} {e : Effective}, s.bus = [] →
    State.addressLoop n w s = .ok e t → t = { s with stopHit := t.stopHit }
  | 0, _, _, _, _, _, h => by cases h
  | n + 1, w, s, t, e, hb, h => by
    unfold State.addressLoop at h
    split at h
    · obtain ⟨w', s', h1, h2⟩ := Res.bind_eq_ok h
      obtain ⟨pa, _, _, rfl⟩ := State.load32_ok h1
      rw [State.transact_of_bus hb] at h2
      exact (State.addressLoop_alone (by exact hb) h2).trans rfl
    · cases h; rfl

/-- A direct reference is resolved in one level. -/
theorem State.effective_direct {s : State} {w : Word} (h : w.getLsbD 20 = false) :
    s.effective w = .ok (s.addressLevel w) s := by
  unfold State.effective indirectLimit
  unfold State.addressLoop
  simp only [h, Bool.false_eq_true, if_false]

/-! ## Real memory -/

theorem State.realWrite_ok {s t : State} {a : Addr} {v : Word} (h : s.realWrite a v = .ok t) : t = s.poke32 a v := by
  unfold State.realWrite at h
  split at h <;> cases h
  rfl

theorem State.switchRead_ok {s : State} {a : Addr} {k : State → Word → Switch} {w : Word} (h : s.transact.realRead a = .ok w) :
    s.switchRead a k = k s.transact w := by
  unfold State.switchRead; simp only [h]

theorem State.switchRead_error {s : State} {a : Addr} {k : State → Word → Switch} {e : MemError}
    (h : s.transact.realRead a = .error e) : s.switchRead a k = .memory e s.transact := by
  unfold State.switchRead; simp only [h]

theorem State.switchWrite_ok {s : State} {a : Addr} {v : Word} {k : State → Switch} (h : s.transact.present a 4 = true) :
    s.switchWrite a v k = k (s.transact.poke32 a v) := by
  unfold State.switchWrite State.realWrite; simp only [h, if_true]

theorem State.switchWrite_error {s : State} {a : Addr} {v : Word} {k : State → Switch} (h : s.transact.present a 4 = false) :
    s.switchWrite a v k = .memory .nonpresent s.transact := by
  unfold State.switchWrite State.realWrite; simp only [h, Bool.false_eq_true, if_false]

/-! ## The map walk, with no bus agent's write to come: it leaves the machine as it was -/

theorem loadPages_alone : ∀ (n : Nat) (a : Addr) {m : MapLoad}, m.state.bus = [] → (loadPages n a m).state = m.state
  | 0, _, _, _ => rfl
  | n + 1, a, m, h => by
    unfold loadPages
    split
    · split
      · exact State.transact_of_bus h
      · have e : m.state.transact = m.state := State.transact_of_bus h
        exact (loadPages_alone n (a + 2) (by show m.state.transact.bus = []; rw [e]; exact h)).trans e
    · rfl

theorem loadSegment_alone (a : Addr) {m : MapLoad} (h : m.state.bus = []) : (loadSegment a m).state = m.state := by
  have e : m.state.transact = m.state := State.transact_of_bus h
  unfold loadSegment
  split
  · exact e
  · exact (loadPages_alone _ _ (by show m.state.transact.bus = []; rw [e]; exact h)).trans e

theorem loadSegments_alone : ∀ (n : Nat) (a : Addr) {m : MapLoad}, m.state.bus = [] → (loadSegments n a m).state = m.state
  | 0, _, _, _ => rfl
  | n + 1, a, m, h => by
    unfold loadSegments
    split
    · exact loadSegment_alone a h
    · exact (loadSegments_alone n (a + 4) (by rw [loadSegment_alone a h]; exact h)).trans (loadSegment_alone a h)

theorem loadBorrowed_alone (x : BitVec 12) {m : MapLoad} (h : m.state.bus = []) : (loadBorrowed x m).state = m.state := by
  have e : m.state.transact = m.state := State.transact_of_bus h
  unfold loadBorrowed
  simp only
  split
  · exact e
  · exact (loadSegment_alone _ (by show m.state.transact.bus = []; rw [e]; exact h)).trans e

theorem State.mapWalk_alone {s : State} (n2 : Word) (h : s.bus = []) : (s.mapWalk n2).state = s := by
  have e : s.transact = s := State.transact_of_bus h
  unfold State.mapWalk
  simp only
  split
  · exact e
  · have b : (loadBorrowed (n2.extractLsb' 18 12) ⟨Vector.replicate 32 0, 0, none,
        s.readStops (s.mplAddr + BitVec.zeroExtend 24 (n2.extractLsb' 2 12 ++ 0#2)), s.transact⟩).state = s :=
      (loadBorrowed_alone _ (by rw [e]; exact h)).trans e
    split
    · split
      · exact b
      · exact (loadSegments_alone _ _ (by rw [b]; exact h)).trans (b)
    · exact (loadSegments_alone _ _ (by rw [e]; exact h)).trans e

/-! ## Checks -/

theorem psdOnly_psd {s : State} {k : Outcome} (h : s.mode = .psd) : psdOnly s k = k := by unfold psdOnly; rw [h]

theorem psdOnly_psw {s : State} {k : Outcome} (h : s.mode = .psw) : psdOnly s k = raise .undefined s := by
  unfold psdOnly; rw [h]

theorem cpuOnly_cpu {s : State} {k : Outcome} (h : s.cfg.role = .cpu) : cpuOnly s k = k := by unfold cpuOnly; rw [h]

theorem cpuOnly_ipu {s : State} {k : Outcome} (h : s.cfg.role = .ipu) : cpuOnly s k = raise .undefined s := by
  unfold cpuOnly; rw [h]

theorem privileged_yes {s : State} {k : Outcome} (h : s.priv = true) : privileged s k = k := by
  unfold privileged; rw [if_pos h]

theorem privileged_no {s : State} {k : Outcome} (h : s.priv = false) : privileged s k = raise .privilege s := by
  unfold privileged; rw [h]; rfl

/-- On a CPU every raise is a next state (60_exceptions.md R653, R622). -/
theorem raise_cpu {t : Trap} {s : State} (h : s.cfg.role = .cpu) : ∃ u, raise t s = .next u := by
  unfold raise
  rw [h]
  cases s.mode
  · exact ⟨_, rfl⟩
  · exact ⟨_, rfl⟩

/-! ## Read-modify-write -/

/-- The lock is free after a locked operation that succeeds. -/
theorem withLock_ok {α : Type} {f : State → Res α} {s t : State} {a : α} (h : withLock f s = .ok a t) :
    ∃ u, f { s.transact with memLock := true } = .ok a u ∧ t = { u with memLock := false } := by
  unfold withLock at h
  split at h
  · rename_i b u hu; cases h; exact ⟨u, hu, rfl⟩
  · cases h
  · cases h

/-- The lock and the panel's stop match are nothing to the bus. -/
theorem State.busWrites_marks (b c : Bool) : ∀ (l : List (Addr × Byte)) (s : State),
    State.busWrites { s with memLock := b, stopHit := c } l = { s.busWrites l with memLock := b, stopHit := c }
  | [], _ => rfl
  | (a, v) :: l, s => by
    have e : State.busWrite { s with memLock := b, stopHit := c } a v = { s.busWrite a v with memLock := b, stopHit := c } := by
      unfold State.busWrite
      show (if Config.presentAt s.cfg a.toNat = true then _ else _) = _
      split <;> rfl
    show State.busWrites (State.busWrite _ a v) l = _
    rw [e]
    exact State.busWrites_marks b c l (s.busWrite a v)

/-- A transaction of a processor that holds no lock: the next writes of bus agents. -/
theorem State.transact_eq {s : State} (h : s.memLock = false) :
    s.transact = State.busWrites { s with bus := s.bus.tail } (s.bus.headD []) := by
  unfold State.transact
  rw [if_neg (by rw [h]; decide)]
  split
  · rename_i e
    rw [e]; show s = { s with bus := [] }; rw [← e]
  · rename_i e
    rw [e]; rfl

theorem State.transact_marks (c : Bool) {s : State} (h : s.memLock = false) :
    State.transact { s with memLock := false, stopHit := c } = { s.transact with memLock := false, stopHit := c } := by
  rw [State.transact_eq rfl, State.transact_eq h]
  exact State.busWrites_marks false c _ { s with bus := s.bus.tail }

/-- A write is located without regard to what memory holds. -/
theorem State.locate_write_mem (s : State) (m : List Host.Cell) (p : List Nat) (b : List (List (Addr × Byte))) (k c : Bool) (a : Addr) :
    State.locate { s with mem := m, parityBad := p, bus := b, memLock := k, stopHit := c } .write a 4 = s.locate .write a 4 := rfl

/-- What an agent or the processor writes changes nothing of where a write goes. -/
theorem State.poke8_locate_write (s : State) (x : Addr) (v : Byte) (a : Addr) :
    (s.poke8 x v).locate .write a 4 = s.locate .write a 4 :=
  State.locate_write_mem s _ _ s.bus s.memLock s.stopHit a

theorem State.poke32_locate_write (s : State) (x : Addr) (v : Word) (a : Addr) :
    (s.poke32 x v).locate .write a 4 = s.locate .write a 4 := by
  simp only [State.poke32, State.poke16, State.poke8_locate_write]

theorem State.transact_locate_write (s : State) (a : Addr) : s.transact.locate .write a 4 = s.locate .write a 4 := by
  rw [State.transact_frame]
  exact State.locate_write_mem s _ _ _ s.memLock s.stopHit a

/-- The lock passed on: the second word's transaction. -/
theorem State.relock_marks (c : Bool) {s : State} (h : s.memLock = false) :
    State.relock { s with memLock := true, stopHit := c } = { s.transact with memLock := true, stopHit := c } := by
  unfold State.relock
  exact congrArg (fun t : State => { t with memLock := true }) (State.transact_marks c h)

theorem State.load32_locked {s : State} {a pa : Addr} (c : Bool) (h : s.locate .read a 4 = .ok pa) :
    ∃ c', State.load32 { s with memLock := true, stopHit := c } a =
      .ok (Memory.read32 s.mem pa) { s with memLock := true, stopHit := c' } := by
  have e : State.transact { s with memLock := true, stopHit := c } = { s with memLock := true, stopHit := c } := State.transact_of_lock rfl
  have h' := State.load32_eq (s := { s with memLock := true, stopHit := c }) (la := a) (pa := pa) (by rw [e]; exact h)
  rw [e] at h'
  exact ⟨_, h'⟩

theorem State.store32_locked {s : State} {a pa : Addr} {v : Word} (c : Bool) (h : s.locate .write a 4 = .ok pa) :
    ∃ c', State.store32 { s with memLock := true, stopHit := c } a v =
      .ok () { s.poke32 pa v with memLock := true, stopHit := c' } := by
  have e : State.transact { s with memLock := true, stopHit := c } = { s with memLock := true, stopHit := c } := State.transact_of_lock rfl
  have h' := State.store32_eq (s := { s with memLock := true, stopHit := c }) (la := a) (pa := pa) (v := v) (by rw [e]; exact h)
  rw [e] at h'
  exact ⟨_, h'⟩

theorem State.poke8_withBus (s : State) (b : List (List (Addr × Byte))) (x : Addr) (v : Byte) :
    State.poke8 { s with bus := b } x v = { s.poke8 x v with bus := b } := rfl

theorem State.poke32_withBus (s : State) (b : List (List (Addr × Byte))) (x : Addr) (v : Word) :
    State.poke32 { s with bus := b } x v = { s.poke32 x v with bus := b } := by
  simp only [State.poke32, State.poke16, State.poke8_withBus]

/-- A locked operation that succeeds. -/
theorem withLock_eq {α : Type} {f : State → Res α} {s u : State} {a : α} (h : f { s.transact with memLock := true } = .ok a u) :
    withLock f s = .ok a { u with memLock := false } := by
  unfold withLock
  rw [h]

/-- A doubleword read and written in place: the low-order word's action, what bus agents write next, the other
word's action. -/
theorem State.modify64_eq {s : State} {a pl ph : Addr} {f : Double → Double} (hf : s.memLock = false) (hm : Memory.wf s.mem = true)
    (h1 : s.transact.locate .read (a + 4) 4 = .ok pl) (h2 : s.transact.locate .write (a + 4) 4 = .ok pl)
    (h3 : s.transact.transact.locate .read a 4 = .ok ph) (h4 : s.transact.transact.locate .write a 4 = .ok ph) :
    let v : Double := Memory.read32 s.transact.transact.mem ph ++ Memory.read32 s.transact.mem pl
    ∃ b, s.modify64 a f = .ok v { (s.transact.poke32 pl ((f v).extractLsb' 0 32)).transact.poke32 ph ((f v).extractLsb' 32 32) with
      memLock := false, stopHit := b } := by
  intro v
  have hl : s.transact.memLock = false := by rw [State.transact_memLock]; exact hf
  have ht := State.transact_eq hl
  have hp := State.transact_eq (s := s.transact.poke32 pl ((f v).extractLsb' 0 32)) (by rw [State.poke32_memLock]; exact hl)
  obtain ⟨c1, e1⟩ := State.load32_locked s.transact.stopHit h1
  obtain ⟨c2, e2⟩ := State.load32_locked c1 h3
  obtain ⟨c3, e3⟩ := State.store32_locked (s := s.transact.transact) (v := (f v).extractLsb' 0 32) c2 (a := a + 4) (pa := pl)
    (by rw [State.transact_locate_write]; exact h2)
  have e4 : State.busWrites { s.transact.transact.poke32 pl ((f v).extractLsb' 0 32) with memLock := true, stopHit := c3 } (s.transact.bus.headD []) =
      { (s.transact.poke32 pl ((f v).extractLsb' 0 32)).transact with memLock := true, stopHit := c3 } := by
    rw [State.busWrites_marks, hp, ht, State.busWrites_again (s := { s.transact with bus := s.transact.bus.tail }) (State.transact_wf hm),
      State.poke32_withBus, State.poke32_bus]
  obtain ⟨c5, e5⟩ := State.store32_locked (s := (s.transact.poke32 pl ((f v).extractLsb' 0 32)).transact) (v := (f v).extractLsb' 32 32) c3
    (a := a) (pa := ph) (by rw [State.transact_locate_write, State.poke32_locate_write]; rw [State.transact_locate_write] at h4; exact h4)
  refine ⟨c5, ?_⟩
  refine withLock_eq (u := { (s.transact.poke32 pl ((f v).extractLsb' 0 32)).transact.poke32 ph ((f v).extractLsb' 32 32) with
    memLock := true, stopHit := c5 }) ?_
  show (State.load32 { s.transact with memLock := true, stopHit := s.transact.stopHit } (a + 4)).bind _ = _
  rw [e1, Res.bind_ok, State.relock_marks c1 hl, e2, Res.bind_ok]
  show (State.store32 _ (a + 4) ((f v).extractLsb' 0 32)).bind _ = _
  rw [e3, Res.bind_ok]
  show (State.store32 (State.busWrites _ (s.transact.bus.headD [])) a ((f v).extractLsb' 32 32)).bind _ = _
  rw [e4, e5, Res.bind_ok]

/-- Nothing is passed on to a bus without agents. -/
theorem State.relock_of_bus {s : State} (hb : s.bus = []) (hl : s.memLock = true) : s.relock = s := by
  unfold State.relock
  rw [State.transact_of_bus (by exact hb)]
  show { s with memLock := true } = s
  rw [← hl]

theorem Res.bind_bind {α β γ : Type} (x : Res α) (k : α → State → Res β) (l : β → State → Res γ) :
    (x.bind k).bind l = x.bind fun a s => (k a s).bind l := by
  cases x <;> rfl

theorem withLock_congr {α : Type} {f g : State → Res α} {s : State}
    (h : f { s.transact with memLock := true } = g { s.transact with memLock := true }) : withLock f s = withLock g s := by
  unfold withLock
  rw [h]

/-- Without bus agents the doubleword is read and then written, as one (R431). -/
theorem State.modify64_of_bus {s : State} {a : Addr} {f : Double → Double} (hb : s.bus = []) :
    s.modify64 a f =
      withLock (fun s0 => (s0.load64 a).bind fun v s1 => (s1.store64 a (f v)).bind fun _ s2 => .ok v s2) s := by
  have key (t : State) (ht : t.bus = []) (hl : t.memLock = true) :
      ((t.load32 (a + 4)).bind fun lo s1 => (s1.relock.load32 a).bind fun hi s2 =>
        (s2.store32 (a + 4) ((f (hi ++ lo)).extractLsb' 0 32)).bind fun _ s3 =>
          ((s3.busWrites (s1.bus.headD [])).store32 a ((f (hi ++ lo)).extractLsb' 32 32)).bind fun _ s4 => Res.ok (hi ++ lo) s4) =
      (t.load64 a).bind fun v s1 => (s1.store64 a (f v)).bind fun _ s2 => .ok v s2 := by
    rw [State.load64, Res.bind_bind]
    cases h : t.load32 (a + 4) with
    | trap x u => rfl
    | stuck x => rfl
    | ok lo s1 =>
      obtain ⟨pa, -, -, e⟩ := State.load32_ok h
      have hb1 : s1.bus = [] := by rw [e, State.transact_of_lock hl]; exact ht
      have hl1 : s1.memLock = true := by rw [e, State.transact_of_lock hl]; exact hl
      rw [Res.bind_ok, Res.bind_ok, State.relock_of_bus hb1 hl1, Res.bind_bind, hb1]
      refine congrArg (Res.bind (s1.load32 a)) ?_
      funext hi s2
      rw [Res.bind_ok, State.store64, Res.bind_bind]
      rfl
  exact withLock_congr (key _ (by rw [State.transact_of_bus hb]; exact hb) rfl)

end Sys2Proof.Machine
end

