-- ==== Sys2Proof/Laws/Completion.lean ====
section
/-! SUPPORT. Lemmas about completion: the panel's stop match does not decide an access, and what a memory operand's
instruction answers by its operand. -/

namespace Sys2Proof.Machine

@[simp] theorem State.withStop_withStop (s : State) (a b : Bool) : (s.withStop a).withStop b = s.withStop b := rfl
@[simp] theorem State.withStop_mem (s : State) (b : Bool) : (s.withStop b).mem = s.mem := rfl
@[simp] theorem State.withStop_regs (s : State) (b : Bool) : (s.withStop b).regs = s.regs := rfl
@[simp] theorem State.withStop_cc (s : State) (b : Bool) : (s.withStop b).cc = s.cc := rfl
@[simp] theorem State.withStop_pc (s : State) (b : Bool) : (s.withStop b).pc = s.pc := rfl
@[simp] theorem State.withStop_mode (s : State) (b : Bool) : (s.withStop b).mode = s.mode := rfl
@[simp] theorem State.withStop_cfg (s : State) (b : Bool) : (s.withStop b).cfg = s.cfg := rfl

theorem State.withStop_present (s : State) (b : Bool) : ∀ (n : Nat) (a : Addr), (s.withStop b).present a n = s.present a n
  | 0, _ => rfl
  | n + 1, a => by simp only [State.present, State.withStop_present s b n]; rfl

theorem State.withStop_parityAt (s : State) (b : Bool) : ∀ (n : Nat) (a : Addr), (s.withStop b).parityAt a n = s.parityAt a n
  | 0, _ => rfl
  | n + 1, a => by simp only [State.parityAt, State.withStop_parityAt s b n]; rfl

/-- The stop match decides no access. -/
theorem State.withStop_locate (s : State) (b : Bool) (k : Access) (la : Addr) (n : Nat) :
    (s.withStop b).locate k la n = s.locate k la n := by
  have h1 : (s.withStop b).translate la = s.translate la := rfl
  have h2 : (s.withStop b).writeProtected la = s.writeProtected la := rfl
  simp only [State.locate, h1, h2, State.withStop_present, State.withStop_parityAt]

/-- Nor does it decide a real read or the walk of a map load. -/
theorem State.withStop_realRead (s : State) (b : Bool) (a : Addr) : (s.withStop b).realRead a = s.realRead a := by
  simp only [State.realRead, State.withStop_present, State.withStop_parityAt]; rfl

/-- Nor whether a bus agent writes. -/
theorem State.withStop_transact {s : State} (b : Bool) (h : s.Alone) : (s.withStop b).transact = s.withStop b :=
  State.transact_of_bus (by exact h)

/-- Effective addressing changes the stop match alone. -/
theorem State.effective_withStop {s s1 : State} {w : Word} {e : Effective} (a : s.Alone) (h : s.effective w = .ok e s1) :
    ∃ b, s1 = s.withStop b := ⟨_, State.addressLoop_alone a h⟩

theorem State.ReadsByte.load {s : State} {a : Addr} {v : Byte} (b : Bool) (hs : s.Alone) (h : s.ReadsByte a v) :
    ∃ b', (s.withStop b).load8 a = .ok v (s.withStop b') := by
  obtain ⟨pa, h, rfl⟩ := h
  have e := State.withStop_transact b hs
  exact ⟨_, by rw [State.load8_eq (pa := pa) (by rw [e, State.withStop_locate]; exact h), e]; rfl⟩

theorem State.ReadsHalf.load {s : State} {a : Addr} {v : Half} (b : Bool) (hs : s.Alone) (h : s.ReadsHalf a v) :
    ∃ b', (s.withStop b).load16 a = .ok v (s.withStop b') := by
  obtain ⟨pa, h, rfl⟩ := h
  have e := State.withStop_transact b hs
  exact ⟨_, by rw [State.load16_eq (pa := pa) (by rw [e, State.withStop_locate]; exact h), e]; rfl⟩

theorem State.ReadsWord.load {s : State} {a : Addr} {v : Word} (b : Bool) (hs : s.Alone) (h : s.ReadsWord a v) :
    ∃ b', (s.withStop b).load32 a = .ok v (s.withStop b') := by
  obtain ⟨pa, h, rfl⟩ := h
  have e := State.withStop_transact b hs
  exact ⟨_, by rw [State.load32_eq (pa := pa) (by rw [e, State.withStop_locate]; exact h), e]; rfl⟩

theorem State.ReadsWord.load64 {s : State} {a : Addr} {hi lo : Word} (b : Bool) (hs : s.Alone) (h : s.ReadsWord a hi)
    (h' : s.ReadsWord (a + 4) lo) : ∃ b', (s.withStop b).load64 a = .ok (hi ++ lo) (s.withStop b') := by
  obtain ⟨b1, h1⟩ := h'.load b hs
  obtain ⟨b2, h2⟩ := h.load b1 hs
  exact ⟨b2, by rw [State.load64, h1, Res.bind_ok, h2, Res.bind_ok]⟩

/-- An instruction of a memory operand, by the operand its effective address selects. -/
theorem State.onRead_of {s : State} {i : Instr} {w : Word} {mem : Members} {fb : Byte → Prop} {fh : Half → Prop}
    {fw : Word → Prop} {fd : Word → Word → Prop} (hx : exec i s = withOperand w mem s)
    (hb : ∀ b a v, s.ReadsByte a v → mem.byte a (s.withStop b) = exec i s → fb v)
    (hh : ∀ b a v, s.ReadsHalf a v → mem.half a (s.withStop b) = exec i s → fh v)
    (hw : ∀ b a v, s.ReadsWord a v → mem.word a (s.withStop b) = exec i s → fw v)
    (hd : ∀ b a hi lo, s.ReadsWord a hi → s.ReadsWord (a + 4) lo → mem.double a (s.withStop b) = exec i s → fd hi lo) :
    s.OnRead w fb fh fw fd := by
  intro hs e s1 he
  obtain ⟨b, rfl⟩ := State.effective_withStop hs he
  rw [withOperand, he, Res.finish_ok] at hx
  split
  · rename_i a h; intro v hv; exact hb b a v hv (by rw [hx, h])
  · rename_i a h; intro v hv; exact hh b a v hv (by rw [hx, h])
  · rename_i a h; intro v hv; exact hw b a v hv (by rw [hx, h])
  · rename_i a h; intro v u hv hu; exact hd b a v u hv hu (by rw [hx, h])

/-- The condition code of a value of any width is that of its signed value. -/
theorem ccOf_eq_signCc {n : Nat} (ae : Bool) (v : BitVec n) : ccOf ae v = signCc ae v.toInt := by
  have h0 : (v = 0) ↔ v.toInt = 0 := by
    constructor
    · rintro rfl; simp
    · intro h; apply BitVec.eq_of_toInt_eq; simpa using h
  unfold ccOf signCc
  rcases lt_trichotomy v.toInt 0 with h | h | h
  · rw [decide_eq_false (by omega : ¬0 < v.toInt), decide_eq_true h, decide_eq_false (by rw [h0]; omega : ¬v = 0),
      if_neg (by omega : ¬0 < v.toInt), if_pos h]
    cases ae <;> rfl
  · rw [decide_eq_false (by omega : ¬0 < v.toInt), decide_eq_false (by omega : ¬v.toInt < 0), decide_eq_true (h0.2 h),
      if_neg (by omega : ¬0 < v.toInt), if_neg (by omega : ¬v.toInt < 0)]
    cases ae <;> rfl
  · rw [decide_eq_true h, decide_eq_false (by omega : ¬v.toInt < 0), decide_eq_false (by rw [h0]; omega : ¬v = 0), if_pos h]
    cases ae <;> rfl

/-- Setting flags and exception by the result is `afterArith` with its sign. -/
theorem State.setArith_eq {n : Nat} (s : State) (ae : Bool) (v : BitVec n) :
    s.setArith ae v = s.afterArith ae (signCc ae v.toInt) := by
  rw [State.setArith, ccOf_eq_signCc]; rfl

/-- The two registers of a pair are different ones. -/
theorem oddReg_ne_evenReg (r : Reg) : (r ||| 1) ≠ (r &&& 6) := by revert r; decide

/-- The order of the two writes of a pair does not matter. -/
theorem State.setReg_pair (s : State) (r : Reg) (x y : Word) :
    (s.setReg (oddReg r) x).setReg (evenReg r) y = (s.setReg (r &&& 6) y).setReg (r ||| 1) x := by
  unfold State.setReg oddReg evenReg
  congr 1
  simp only
  apply Vector.ext
  intro j hj
  have : (r ||| 1).toNat ≠ (r &&& 6).toNat := by revert r; decide
  grind

end Sys2Proof.Machine
end

