-- ==== Sys2Proof/Laws/Decode.lean ====
section
/-! SUPPORT. Fields and words: cutting a built halfword or word gives its fields back. -/

namespace Sys2Proof

/-- Bits above the lower part of a concatenation. -/
theorem extract_append_left {n m : Nat} (a : BitVec n) (b : BitVec m) (k j : Nat) :
    (a ++ b).extractLsb' (m + k) j = a.extractLsb' k j := by
  ext i hi
  simp [BitVec.getElem_extractLsb', BitVec.getLsbD_append, Nat.add_assoc]

/-- The lower part of a concatenation. -/
theorem extract_append_right {n m : Nat} (a : BitVec n) (b : BitVec m) : (a ++ b).extractLsb' 0 m = b := by
  ext i hi
  simp [BitVec.getElem_extractLsb', BitVec.getLsbD_append, hi, BitVec.getLsbD_eq_getElem]

theorem extract_all {n : Nat} (a : BitVec n) : a.extractLsb' 0 n = a := by simp

theorem bit_append_left {n m : Nat} (a : BitVec n) (b : BitVec m) (k : Nat) :
    (a ++ b).getLsbD (m + k) = a.getLsbD k := by
  simp [BitVec.getLsbD_append]

theorem bit_append_right {n : Nat} (a : BitVec n) (b : Bool) : (a ++ BitVec.ofBool b).getLsbD 0 = b := by
  rw [BitVec.getLsbD_append]; cases b <;> rfl

/-- The two parts of a bit vector put together again. -/
theorem append_extract {n : Nat} (k : Nat) (a : BitVec (n + k)) : a.extractLsb' k n ++ a.extractLsb' 0 k = a := by
  ext i hi
  simp only [BitVec.getElem_append, BitVec.getElem_extractLsb']
  split
  · simp [BitVec.getLsbD_eq_getElem, hi]
  · rename_i h
    have : k + (i - k) = i := by omega
    simp [this, BitVec.getLsbD_eq_getElem, hi]

theorem HalfFields.ofHalf_toHalf (f : HalfFields) : HalfFields.ofHalf f.toHalf = f := by
  obtain ⟨op, d, s, aug⟩ := f
  let B := op ++ d
  let C := B ++ s
  have h1 : (C ++ aug).extractLsb' 10 6 = op :=
    (extract_append_left C aug 6 6).trans ((extract_append_left B s 3 6).trans
      ((extract_append_left op d 0 6).trans (extract_all op)))
  have h2 : (C ++ aug).extractLsb' 7 3 = d :=
    (extract_append_left C aug 3 3).trans ((extract_append_left B s 0 3).trans (extract_append_right op d))
  have h3 : (C ++ aug).extractLsb' 4 3 = s := (extract_append_left C aug 0 3).trans (extract_append_right B s)
  have h4 : (C ++ aug).extractLsb' 0 4 = aug := extract_append_right C aug
  exact congr (congr (congr (congrArg HalfFields.mk h1) h2) h3) h4

theorem WordFields.ofWord_toWord (f : WordFields) : WordFields.ofWord f.toWord = f := by
  obtain ⟨op, r, x, i, b, addr, c⟩ := f
  let B := op ++ r
  let C := B ++ x
  let D := C ++ BitVec.ofBool i
  let E := D ++ BitVec.ofBool b
  let F := E ++ addr
  have h1 : (F ++ c).extractLsb' 26 6 = op :=
    (extract_append_left F c 24 6).trans ((extract_append_left E addr 7 6).trans
      ((extract_append_left D (BitVec.ofBool b) 6 6).trans ((extract_append_left C (BitVec.ofBool i) 5 6).trans
        ((extract_append_left B x 3 6).trans ((extract_append_left op r 0 6).trans (extract_all op))))))
  have h2 : (F ++ c).extractLsb' 23 3 = r :=
    (extract_append_left F c 21 3).trans ((extract_append_left E addr 4 3).trans
      ((extract_append_left D (BitVec.ofBool b) 3 3).trans ((extract_append_left C (BitVec.ofBool i) 2 3).trans
        ((extract_append_left B x 0 3).trans (extract_append_right op r)))))
  have h3 : (F ++ c).extractLsb' 21 2 = x :=
    (extract_append_left F c 19 2).trans ((extract_append_left E addr 2 2).trans
      ((extract_append_left D (BitVec.ofBool b) 1 2).trans ((extract_append_left C (BitVec.ofBool i) 0 2).trans
        (extract_append_right B x))))
  have h4 : (F ++ c).getLsbD 20 = i :=
    (bit_append_left F c 18).trans ((bit_append_left E addr 1).trans
      ((bit_append_left D (BitVec.ofBool b) 0).trans (bit_append_right C i)))
  have h5 : (F ++ c).getLsbD 19 = b :=
    (bit_append_left F c 17).trans ((bit_append_left E addr 0).trans (bit_append_right D b))
  have h6 : (F ++ c).extractLsb' 2 17 = addr := (extract_append_left F c 0 17).trans (extract_append_right E addr)
  have h7 : (F ++ c).extractLsb' 0 2 = c := extract_append_right F c
  exact congr (congr (congr (congr (congr (congr (congrArg WordFields.mk h1) h2) h3) h4) h5) h6) h7

/-! ## What each way of building fields gives back -/

@[simp] theorem WordFields.typed_byteMember (op : BitVec 6) (r : Reg) (m : MemRef 19) (b : MemRef 19 → Instr)
    (h : MemRef 18 → Instr) (w d : MemRef 17 → Instr) : (WordFields.byteMember op r m).typed b h w d = b m := by
  show b ⟨m.x, m.ind, m.addr.extractLsb' 2 17 ++ m.addr.extractLsb' 0 2⟩ = b m
  rw [append_extract 2 m.addr]

theorem halfMember_bits (v : BitVec 18) :
    (v.extractLsb' 0 1 ++ 1#1).getLsbD 0 = true ∧ (v.extractLsb' 0 1 ++ 1#1).extractLsb' 1 1 = v.extractLsb' 0 1 := by
  refine ⟨?_, (extract_append_left (v.extractLsb' 0 1) 1#1 0 1).trans (extract_all _)⟩
  rw [BitVec.getLsbD_append]; rfl

theorem wideMember_bits (v : BitVec 18) :
    (v.extractLsb' 0 1 ++ 0#1).getLsbD 0 = false ∧ (v.extractLsb' 0 1 ++ 0#1).extractLsb' 1 1 = v.extractLsb' 0 1 := by
  refine ⟨?_, (extract_append_left (v.extractLsb' 0 1) 0#1 0 1).trans (extract_all _)⟩
  rw [BitVec.getLsbD_append]; rfl

@[simp] theorem WordFields.halfRef_halfMember (op : BitVec 6) (r : Reg) (m : MemRef 18) :
    (WordFields.halfMember op r m).halfRef = m := by
  show (⟨m.x, m.ind, m.addr.extractLsb' 1 17 ++ (m.addr.extractLsb' 0 1 ++ 1#1).extractLsb' 1 1⟩ : MemRef 18) = m
  rw [(halfMember_bits m.addr).2, append_extract 1 m.addr]

@[simp] theorem WordFields.halfRef_wideMember (op : BitVec 6) (r : Reg) (m : MemRef 18) :
    (WordFields.wideMember op r m).halfRef = m := by
  show (⟨m.x, m.ind, m.addr.extractLsb' 1 17 ++ (m.addr.extractLsb' 0 1 ++ 0#1).extractLsb' 1 1⟩ : MemRef 18) = m
  rw [(wideMember_bits m.addr).2, append_extract 1 m.addr]

@[simp] theorem WordFields.typed_halfMember (op : BitVec 6) (r : Reg) (m : MemRef 18) (b : MemRef 19 → Instr)
    (h : MemRef 18 → Instr) (w d : MemRef 17 → Instr) : (WordFields.halfMember op r m).typed b h w d = h m := by
  unfold WordFields.typed
  rw [WordFields.halfRef_halfMember]
  simp only [WordFields.halfMember, (halfMember_bits m.addr).1, if_true, if_false, Bool.false_eq_true]

@[simp] theorem WordFields.typed_wordMember (op : BitVec 6) (r : Reg) (m : MemRef 17) (b : MemRef 19 → Instr)
    (h : MemRef 18 → Instr) (w d : MemRef 17 → Instr) : (WordFields.wordMember op r m).typed b h w d = w m := by
  simp [WordFields.typed, WordFields.wordMember, WordFields.wordRef]

@[simp] theorem WordFields.typed_doubleMember (op : BitVec 6) (r : Reg) (m : MemRef 17) (b : MemRef 19 → Instr)
    (h : MemRef 18 → Instr) (w d : MemRef 17 → Instr) : (WordFields.doubleMember op r m).typed b h w d = d m := by
  simp [WordFields.typed, WordFields.doubleMember, WordFields.wordRef]

@[simp] theorem WordFields.typedWide_byteMember (op : BitVec 6) (r : Reg) (m : MemRef 19) (b : MemRef 19 → Instr)
    (h w : MemRef 18 → Instr) : (WordFields.byteMember op r m).typedWide b h w = b m := by
  show b ⟨m.x, m.ind, m.addr.extractLsb' 2 17 ++ m.addr.extractLsb' 0 2⟩ = b m
  rw [append_extract 2 m.addr]

@[simp] theorem WordFields.typedWide_halfMember (op : BitVec 6) (r : Reg) (m : MemRef 18) (b : MemRef 19 → Instr)
    (h w : MemRef 18 → Instr) : (WordFields.halfMember op r m).typedWide b h w = h m := by
  unfold WordFields.typedWide
  rw [WordFields.halfRef_halfMember]
  simp only [WordFields.halfMember, (halfMember_bits m.addr).1, if_true, if_false, Bool.false_eq_true]

@[simp] theorem WordFields.typedWide_wideMember (op : BitVec 6) (r : Reg) (m : MemRef 18) (b : MemRef 19 → Instr)
    (h w : MemRef 18 → Instr) : (WordFields.wideMember op r m).typedWide b h w = w m := by
  unfold WordFields.typedWide
  rw [WordFields.halfRef_wideMember]
  simp only [WordFields.wideMember, (wideMember_bits m.addr).1, if_false, Bool.false_eq_true]

theorem upper_two_parts (v : BitVec 20) :
    BitVec.ofBool (v.getLsbD 19) ++ v.extractLsb' 2 17 ++ v.extractLsb' 0 2 = v := by
  ext i hi
  simp only [BitVec.getElem_append, BitVec.getElem_extractLsb', BitVec.getElem_ofBool]
  split
  · simp [BitVec.getLsbD_eq_getElem, hi]
  · split
    · have : 2 + (i - 2) = i := by omega
      simp [this, BitVec.getLsbD_eq_getElem, hi]
    · have : i = 19 := by omega
      subst this
      simp [BitVec.getLsbD_eq_getElem]

theorem three_parts (v : BitVec 10) : v.extractLsb' 7 3 ++ v.extractLsb' 4 3 ++ v.extractLsb' 0 4 = v := by
  ext i hi
  simp only [BitVec.getElem_append, BitVec.getElem_extractLsb']
  split
  · simp [BitVec.getLsbD_eq_getElem, hi]
  · split
    · have : 4 + (i - 4) = i := by omega
      simp [this, BitVec.getLsbD_eq_getElem, hi]
    · have : 7 + (i - 4 - 3) = i := by omega
      simp [this, BitVec.getLsbD_eq_getElem, hi]

@[simp] theorem WordFields.fullRef_fullMember (op : BitVec 6) (r : Reg) (m : MemRef 20) :
    (WordFields.fullMember op r m).fullRef = m := by
  show (⟨m.x, m.ind, BitVec.ofBool (m.addr.getLsbD 19) ++ m.addr.extractLsb' 2 17 ++ m.addr.extractLsb' 0 2⟩ :
    MemRef 20) = m
  rw [upper_two_parts m.addr]

@[simp] theorem WordFields.byteRef_floatWord (op : BitVec 6) (r : Reg) (f : Bool) (m : MemRef 19) :
    (WordFields.floatWord op r f m).byteRef = m := by
  show (⟨m.x, m.ind, m.addr.extractLsb' 2 17 ++ m.addr.extractLsb' 0 2⟩ : MemRef 19) = m
  rw [append_extract 2 m.addr]

@[simp] theorem WordFields.floating_floatWord (op : BitVec 6) (r : Reg) (f : Bool) (m : MemRef 19)
    (w : MemRef 19 → Instr) (d : MemRef 17 → Instr) (h : m.addr.extractLsb' 0 2 ≠ 0b10#2) :
    (WordFields.floatWord op r f m).floating w d = w m := by
  unfold WordFields.floating
  rw [WordFields.byteRef_floatWord]
  exact if_neg h

@[simp] theorem WordFields.floating_floatDouble (op : BitVec 6) (r : Reg) (f : Bool) (m : MemRef 17)
    (w : MemRef 19 → Instr) (d : MemRef 17 → Instr) : (WordFields.floatDouble op r f m).floating w d = d m := rfl

@[simp] theorem WordFields.aug_packed (op : BitVec 6) (r : Reg) (u : BitVec 4) (a : BitVec 3) (v : Half) :
    (WordFields.packed op r u a v).aug = a :=
  (extract_append_left a (v.extractLsb' 2 14) 0 3).trans (extract_all a)

@[simp] theorem WordFields.imm_packed (op : BitVec 6) (r : Reg) (u : BitVec 4) (a : BitVec 3) (v : Half) :
    (WordFields.packed op r u a v).imm = v := by
  show (a ++ v.extractLsb' 2 14).extractLsb' 0 14 ++ v.extractLsb' 0 2 = v
  rw [extract_append_right]
  exact append_extract 2 v

@[simp] theorem WordFields.upper4_packed (op : BitVec 6) (r : Reg) (u : BitVec 4) (a : BitVec 3) (v : Half) :
    (WordFields.packed op r u a v).upper4 = u := by
  show u.extractLsb' 2 2 ++ BitVec.ofBool (u.getLsbD 1) ++ BitVec.ofBool (u.getLsbD 0) = u
  revert u; decide

@[simp] theorem WordFields.upper7_packed (op : BitVec 6) (l : BitVec 7) (a : BitVec 3) (v : Half) :
    (WordFields.packed op (l.extractLsb' 4 3) (l.extractLsb' 0 4) a v).upper7 = l := by
  show l.extractLsb' 4 3 ++ (WordFields.packed op (l.extractLsb' 4 3) (l.extractLsb' 0 4) a v).upper4 = l
  rw [WordFields.upper4_packed]
  exact append_extract 4 l

@[simp] theorem HalfFields.shiftLeft_shift (op : BitVec 6) (r : Reg) (b : Bool) (n : BitVec 5) :
    (HalfFields.shift op r b n).shiftLeft = b := by
  show (BitVec.ofBool b ++ 0#1 ++ n.extractLsb' 4 1).getLsbD 2 = b
  revert n b; decide

@[simp] theorem HalfFields.shiftCount_shift (op : BitVec 6) (r : Reg) (b : Bool) (n : BitVec 5) :
    (HalfFields.shift op r b n).shiftCount = n := by
  show (BitVec.ofBool b ++ 0#1 ++ n.extractLsb' 4 1).extractLsb' 0 1 ++ n.extractLsb' 0 4 = n
  rw [extract_append_right]
  exact append_extract 4 n

end Sys2Proof
end

