-- ==== Sys2Proof/Laws/PerInstr.lean ====
section
/-! SUPPORT. Statements made per instruction: the fields of every well-formed instruction decode to it. -/

namespace Sys2Proof.Laws

/-- The fields of a well-formed instruction decode to it. -/
def Encoding.Statement (i : Instr) : Prop := wellFormed i = true → decodeFields (encodeFields i) = some i

theorem Encoding.lb (r : Reg) (m : MemRef 19) : Encoding.Statement (.lb r m) := by
  intro _
  show some ((WordFields.byteMember 0b101011#6 r m).typed (.lb r) (.lh r) (.lw r) (.ld r)) = _
  rw [WordFields.typed_byteMember]

theorem Encoding.lh (r : Reg) (m : MemRef 18) : Encoding.Statement (.lh r m) := by
  intro _
  show some ((WordFields.halfMember 0b101011#6 r m).typed (.lb r) (.lh r) (.lw r) (.ld r)) = _
  rw [WordFields.typed_halfMember]

theorem Encoding.lw (r : Reg) (m : MemRef 17) : Encoding.Statement (.lw r m) := by
  intro _
  show some ((WordFields.wordMember 0b101011#6 r m).typed (.lb r) (.lh r) (.lw r) (.ld r)) = _
  rw [WordFields.typed_wordMember]

theorem Encoding.ld (r : Reg) (m : MemRef 17) : Encoding.Statement (.ld r m) := by
  intro _
  show some ((WordFields.doubleMember 0b101011#6 r m).typed (.lb r) (.lh r) (.lw r) (.ld r)) = _
  rw [WordFields.typed_doubleMember]

theorem Encoding.lmb (r : Reg) (m : MemRef 19) : Encoding.Statement (.lmb r m) := by
  intro _
  show some ((WordFields.byteMember 0b101100#6 r m).typed (.lmb r) (.lmh r) (.lmw r) (.lmd r)) = _
  rw [WordFields.typed_byteMember]

theorem Encoding.lmh (r : Reg) (m : MemRef 18) : Encoding.Statement (.lmh r m) := by
  intro _
  show some ((WordFields.halfMember 0b101100#6 r m).typed (.lmb r) (.lmh r) (.lmw r) (.lmd r)) = _
  rw [WordFields.typed_halfMember]

theorem Encoding.lmw (r : Reg) (m : MemRef 17) : Encoding.Statement (.lmw r m) := by
  intro _
  show some ((WordFields.wordMember 0b101100#6 r m).typed (.lmb r) (.lmh r) (.lmw r) (.lmd r)) = _
  rw [WordFields.typed_wordMember]

theorem Encoding.lmd (r : Reg) (m : MemRef 17) : Encoding.Statement (.lmd r m) := by
  intro _
  show some ((WordFields.doubleMember 0b101100#6 r m).typed (.lmb r) (.lmh r) (.lmw r) (.lmd r)) = _
  rw [WordFields.typed_doubleMember]

theorem Encoding.lnb (r : Reg) (m : MemRef 19) : Encoding.Statement (.lnb r m) := by
  intro _
  show some ((WordFields.byteMember 0b101101#6 r m).typed (.lnb r) (.lnh r) (.lnw r) (.lnd r)) = _
  rw [WordFields.typed_byteMember]

theorem Encoding.lnh (r : Reg) (m : MemRef 18) : Encoding.Statement (.lnh r m) := by
  intro _
  show some ((WordFields.halfMember 0b101101#6 r m).typed (.lnb r) (.lnh r) (.lnw r) (.lnd r)) = _
  rw [WordFields.typed_halfMember]

theorem Encoding.lnw (r : Reg) (m : MemRef 17) : Encoding.Statement (.lnw r m) := by
  intro _
  show some ((WordFields.wordMember 0b101101#6 r m).typed (.lnb r) (.lnh r) (.lnw r) (.lnd r)) = _
  rw [WordFields.typed_wordMember]

theorem Encoding.lnd (r : Reg) (m : MemRef 17) : Encoding.Statement (.lnd r m) := by
  intro _
  show some ((WordFields.doubleMember 0b101101#6 r m).typed (.lnb r) (.lnh r) (.lnw r) (.lnd r)) = _
  rw [WordFields.typed_doubleMember]

theorem Encoding.li (r : Reg) (v : Half) : Encoding.Statement (.li r v) := by
  intro _
  show decodeGroupC8 (WordFields.packed 0b110010#6 r 0 0 v) = _
  unfold decodeGroupC8
  rw [WordFields.aug_packed, WordFields.imm_packed]
  rfl

theorem Encoding.lea (r : Reg) (m : MemRef 20) : Encoding.Statement (.lea r m) := by
  intro _
  show some (Instr.lea r (WordFields.fullMember 0b110100#6 r m).fullRef) = _
  rw [WordFields.fullRef_fullMember]

theorem Encoding.lear (r : Reg) (m : MemRef 20) : Encoding.Statement (.lear r m) := by
  intro _
  show some (Instr.lear r (WordFields.fullMember 0b100000#6 r m).fullRef) = _
  rw [WordFields.fullRef_fullMember]

theorem Encoding.la (r : Reg) (m : MemRef 20) : Encoding.Statement (.la r m) := by
  intro _
  show some (Instr.la r (WordFields.fullMember 0b001101#6 r m).fullRef) = _
  rw [WordFields.fullRef_fullMember]

theorem Encoding.lf (r : Reg) (m : MemRef 20) : Encoding.Statement (.lf r m) := by
  intro _
  show some (Instr.lf r (WordFields.fullMember 0b110011#6 r m).fullRef) = _
  rw [WordFields.fullRef_fullMember]

theorem Encoding.stb (r : Reg) (m : MemRef 19) : Encoding.Statement (.stb r m) := by
  intro _
  show some ((WordFields.byteMember 0b110101#6 r m).typed (.stb r) (.sth r) (.stw r) (.std r)) = _
  rw [WordFields.typed_byteMember]

theorem Encoding.sth (r : Reg) (m : MemRef 18) : Encoding.Statement (.sth r m) := by
  intro _
  show some ((WordFields.halfMember 0b110101#6 r m).typed (.stb r) (.sth r) (.stw r) (.std r)) = _
  rw [WordFields.typed_halfMember]

theorem Encoding.stw (r : Reg) (m : MemRef 17) : Encoding.Statement (.stw r m) := by
  intro _
  show some ((WordFields.wordMember 0b110101#6 r m).typed (.stb r) (.sth r) (.stw r) (.std r)) = _
  rw [WordFields.typed_wordMember]

theorem Encoding.std (r : Reg) (m : MemRef 17) : Encoding.Statement (.std r m) := by
  intro _
  show some ((WordFields.doubleMember 0b110101#6 r m).typed (.stb r) (.sth r) (.stw r) (.std r)) = _
  rw [WordFields.typed_doubleMember]

theorem Encoding.stmb (r : Reg) (m : MemRef 19) : Encoding.Statement (.stmb r m) := by
  intro _
  show some ((WordFields.byteMember 0b110110#6 r m).typed (.stmb r) (.stmh r) (.stmw r) (.stmd r)) = _
  rw [WordFields.typed_byteMember]

theorem Encoding.stmh (r : Reg) (m : MemRef 18) : Encoding.Statement (.stmh r m) := by
  intro _
  show some ((WordFields.halfMember 0b110110#6 r m).typed (.stmb r) (.stmh r) (.stmw r) (.stmd r)) = _
  rw [WordFields.typed_halfMember]

theorem Encoding.stmw (r : Reg) (m : MemRef 17) : Encoding.Statement (.stmw r m) := by
  intro _
  show some ((WordFields.wordMember 0b110110#6 r m).typed (.stmb r) (.stmh r) (.stmw r) (.stmd r)) = _
  rw [WordFields.typed_wordMember]

theorem Encoding.stmd (r : Reg) (m : MemRef 17) : Encoding.Statement (.stmd r m) := by
  intro _
  show some ((WordFields.doubleMember 0b110110#6 r m).typed (.stmb r) (.stmh r) (.stmw r) (.stmd r)) = _
  rw [WordFields.typed_doubleMember]

theorem Encoding.stf (r : Reg) (m : MemRef 20) : Encoding.Statement (.stf r m) := by
  intro _
  show some (Instr.stf r (WordFields.fullMember 0b110111#6 r m).fullRef) = _
  rw [WordFields.fullRef_fullMember]

theorem Encoding.zmb (m : MemRef 19) : Encoding.Statement (.zmb m) := by
  intro _
  show some ((WordFields.byteMember 0b111110#6 0 m).typed (.zmb) (.zmh) (.zmw) (.zmd)) = _
  rw [WordFields.typed_byteMember]

theorem Encoding.zmh (m : MemRef 18) : Encoding.Statement (.zmh m) := by
  intro _
  show some ((WordFields.halfMember 0b111110#6 0 m).typed (.zmb) (.zmh) (.zmw) (.zmd)) = _
  rw [WordFields.typed_halfMember]

theorem Encoding.zmw (m : MemRef 17) : Encoding.Statement (.zmw m) := by
  intro _
  show some ((WordFields.wordMember 0b111110#6 0 m).typed (.zmb) (.zmh) (.zmw) (.zmd)) = _
  rw [WordFields.typed_wordMember]

theorem Encoding.zmd (m : MemRef 17) : Encoding.Statement (.zmd m) := by
  intro _
  show some ((WordFields.doubleMember 0b111110#6 0 m).typed (.zmb) (.zmh) (.zmw) (.zmd)) = _
  rw [WordFields.typed_doubleMember]

theorem Encoding.zr (d : Reg) : Encoding.Statement (.zr d) := by
  intro h
  cases h

theorem Encoding.tscr (s : Reg) (d : Reg) : Encoding.Statement (.tscr s d) := by
  intro _
  rfl

theorem Encoding.trsc (s : Reg) (d : Reg) : Encoding.Statement (.trsc s d) := by
  intro _
  rfl

theorem Encoding.trr (s : Reg) (d : Reg) : Encoding.Statement (.trr s d) := by
  intro _
  rfl

theorem Encoding.trrm (s : Reg) (d : Reg) : Encoding.Statement (.trrm s d) := by
  intro _
  rfl

theorem Encoding.trp (p : BitVec 4) (r : Reg) : Encoding.Statement (.trp p r) := by
  intro _
  show some (Instr.trp (WordFields.packed 0b111110#6 6 p r 0).upper4 (WordFields.packed 0b111110#6 6 p r 0).aug) = _
  rw [WordFields.upper4_packed, WordFields.aug_packed]

theorem Encoding.tpr (p : BitVec 4) (r : Reg) : Encoding.Statement (.tpr p r) := by
  intro _
  show some (Instr.tpr (WordFields.packed 0b111110#6 7 p r 0).upper4 (WordFields.packed 0b111110#6 7 p r 0).aug) = _
  rw [WordFields.upper4_packed, WordFields.aug_packed]

theorem Encoding.trn (s : Reg) (d : Reg) : Encoding.Statement (.trn s d) := by
  intro _
  rfl

theorem Encoding.trnm (s : Reg) (d : Reg) : Encoding.Statement (.trnm s d) := by
  intro _
  rfl

theorem Encoding.trc (s : Reg) (d : Reg) : Encoding.Statement (.trc s d) := by
  intro _
  rfl

theorem Encoding.trcm (s : Reg) (d : Reg) : Encoding.Statement (.trcm s d) := by
  intro _
  rfl

theorem Encoding.xcr (s : Reg) (d : Reg) : Encoding.Statement (.xcr s d) := by
  intro _
  rfl

theorem Encoding.xcrm (s : Reg) (d : Reg) : Encoding.Statement (.xcrm s d) := by
  intro _
  rfl

theorem Encoding.trsw (s : Reg) : Encoding.Statement (.trsw s) := by
  intro _
  rfl

theorem Encoding.sea : Encoding.Statement .sea := by
  intro _
  rfl

theorem Encoding.cea : Encoding.Statement .cea := by
  intro _
  rfl

theorem Encoding.lmap (d : Reg) : Encoding.Statement (.lmap d) := by
  intro _
  show (if (WordFields.packed 0b001011#6 d 0 7 0).upper4 = 0 ∧ (WordFields.packed 0b001011#6 d 0 7 0).aug = 7 ∧ (WordFields.packed 0b001011#6 d 0 7 0).imm = 0 then some (Instr.lmap d) else none) = _
  rw [WordFields.upper4_packed, WordFields.aug_packed, WordFields.imm_packed]
  rfl

theorem Encoding.tmapr (s : Reg) (d : Reg) : Encoding.Statement (.tmapr s d) := by
  intro _
  rfl

theorem Encoding.wwcs (s : Reg) (d : Reg) : Encoding.Statement (.wwcs s d) := by
  intro _
  rfl

theorem Encoding.rwcs (s : Reg) (d : Reg) : Encoding.Statement (.rwcs s d) := by
  intro _
  rfl

theorem Encoding.jwcs (m : MemRef 20) : Encoding.Statement (.jwcs m) := by
  intro _
  show some (Instr.jwcs (WordFields.fullMember 0b111110#6 4 m).fullRef) = _
  rw [WordFields.fullRef_fullMember]

theorem Encoding.bu (m : MemRef 20) : Encoding.Statement (.bu m) := by
  intro _
  show some (Instr.bu (WordFields.fullMember 0b111011#6 0 m).fullRef) = _
  rw [WordFields.fullRef_fullMember]

theorem Encoding.bct (c : BitVec 3) (m : MemRef 20) : Encoding.Statement (.bct c m) := by
  intro h
  have h' : c ≠ 0 := of_decide_eq_true h
  show some (if c = 0 then Instr.bu (WordFields.fullMember 0b111011#6 c m).fullRef else Instr.bct c (WordFields.fullMember 0b111011#6 c m).fullRef) = _
  rw [if_neg h', WordFields.fullRef_fullMember]

theorem Encoding.bcf (c : BitVec 3) (m : MemRef 20) : Encoding.Statement (.bcf c m) := by
  intro h
  have h' : c ≠ 0 := of_decide_eq_true h
  show some (if c = 0 then Instr.bft (WordFields.fullMember 0b111100#6 c m).fullRef else Instr.bcf c (WordFields.fullMember 0b111100#6 c m).fullRef) = _
  rw [if_neg h', WordFields.fullRef_fullMember]

theorem Encoding.bft (m : MemRef 20) : Encoding.Statement (.bft m) := by
  intro _
  show some (Instr.bft (WordFields.fullMember 0b111100#6 0 m).fullRef) = _
  rw [WordFields.fullRef_fullMember]

theorem Encoding.bl (m : MemRef 20) : Encoding.Statement (.bl m) := by
  intro _
  show some (Instr.bl (WordFields.fullMember 0b111110#6 1 m).fullRef) = _
  rw [WordFields.fullRef_fullMember]

theorem Encoding.bib (r : Reg) (ind : Bool) (a : BitVec 20) : Encoding.Statement (.bib r ind a) := by
  intro _
  show some (Instr.bib r ind (WordFields.fullMember 0b111101#6 r ⟨0, ind, a⟩).fullRef.addr) = _
  rw [WordFields.fullRef_fullMember]

theorem Encoding.bih (r : Reg) (ind : Bool) (a : BitVec 20) : Encoding.Statement (.bih r ind a) := by
  intro _
  show some (Instr.bih r ind (WordFields.fullMember 0b111101#6 r ⟨1, ind, a⟩).fullRef.addr) = _
  rw [WordFields.fullRef_fullMember]

theorem Encoding.biw (r : Reg) (ind : Bool) (a : BitVec 20) : Encoding.Statement (.biw r ind a) := by
  intro _
  show some (Instr.biw r ind (WordFields.fullMember 0b111101#6 r ⟨2, ind, a⟩).fullRef.addr) = _
  rw [WordFields.fullRef_fullMember]

theorem Encoding.bid (r : Reg) (ind : Bool) (a : BitVec 20) : Encoding.Statement (.bid r ind a) := by
  intro _
  show some (Instr.bid r ind (WordFields.fullMember 0b111101#6 r ⟨3, ind, a⟩).fullRef.addr) = _
  rw [WordFields.fullRef_fullMember]

theorem Encoding.camb (r : Reg) (m : MemRef 19) : Encoding.Statement (.camb r m) := by
  intro _
  show some ((WordFields.byteMember 0b100100#6 r m).typed (.camb r) (.camh r) (.camw r) (.camd r)) = _
  rw [WordFields.typed_byteMember]

theorem Encoding.camh (r : Reg) (m : MemRef 18) : Encoding.Statement (.camh r m) := by
  intro _
  show some ((WordFields.halfMember 0b100100#6 r m).typed (.camb r) (.camh r) (.camw r) (.camd r)) = _
  rw [WordFields.typed_halfMember]

theorem Encoding.camw (r : Reg) (m : MemRef 17) : Encoding.Statement (.camw r m) := by
  intro _
  show some ((WordFields.wordMember 0b100100#6 r m).typed (.camb r) (.camh r) (.camw r) (.camd r)) = _
  rw [WordFields.typed_wordMember]

theorem Encoding.camd (r : Reg) (m : MemRef 17) : Encoding.Statement (.camd r m) := by
  intro _
  show some ((WordFields.doubleMember 0b100100#6 r m).typed (.camb r) (.camh r) (.camw r) (.camd r)) = _
  rw [WordFields.typed_doubleMember]

theorem Encoding.car (s : Reg) (d : Reg) : Encoding.Statement (.car s d) := by
  intro _
  rfl

theorem Encoding.ci (r : Reg) (v : Half) : Encoding.Statement (.ci r v) := by
  intro _
  show decodeGroupC8 (WordFields.packed 0b110010#6 r 0 5 v) = _
  unfold decodeGroupC8
  rw [WordFields.aug_packed, WordFields.imm_packed]
  rfl

theorem Encoding.cmmb (r : Reg) (m : MemRef 19) : Encoding.Statement (.cmmb r m) := by
  intro _
  show some ((WordFields.byteMember 0b100101#6 r m).typed (.cmmb r) (.cmmh r) (.cmmw r) (.cmmd r)) = _
  rw [WordFields.typed_byteMember]

theorem Encoding.cmmh (r : Reg) (m : MemRef 18) : Encoding.Statement (.cmmh r m) := by
  intro _
  show some ((WordFields.halfMember 0b100101#6 r m).typed (.cmmb r) (.cmmh r) (.cmmw r) (.cmmd r)) = _
  rw [WordFields.typed_halfMember]

theorem Encoding.cmmw (r : Reg) (m : MemRef 17) : Encoding.Statement (.cmmw r m) := by
  intro _
  show some ((WordFields.wordMember 0b100101#6 r m).typed (.cmmb r) (.cmmh r) (.cmmw r) (.cmmd r)) = _
  rw [WordFields.typed_wordMember]

theorem Encoding.cmmd (r : Reg) (m : MemRef 17) : Encoding.Statement (.cmmd r m) := by
  intro _
  show some ((WordFields.doubleMember 0b100101#6 r m).typed (.cmmb r) (.cmmh r) (.cmmw r) (.cmmd r)) = _
  rw [WordFields.typed_doubleMember]

theorem Encoding.cmr (s : Reg) (d : Reg) : Encoding.Statement (.cmr s d) := by
  intro _
  rfl

theorem Encoding.anmb (r : Reg) (m : MemRef 19) : Encoding.Statement (.anmb r m) := by
  intro _
  show some ((WordFields.byteMember 0b100001#6 r m).typed (.anmb r) (.anmh r) (.anmw r) (.anmd r)) = _
  rw [WordFields.typed_byteMember]

theorem Encoding.anmh (r : Reg) (m : MemRef 18) : Encoding.Statement (.anmh r m) := by
  intro _
  show some ((WordFields.halfMember 0b100001#6 r m).typed (.anmb r) (.anmh r) (.anmw r) (.anmd r)) = _
  rw [WordFields.typed_halfMember]

theorem Encoding.anmw (r : Reg) (m : MemRef 17) : Encoding.Statement (.anmw r m) := by
  intro _
  show some ((WordFields.wordMember 0b100001#6 r m).typed (.anmb r) (.anmh r) (.anmw r) (.anmd r)) = _
  rw [WordFields.typed_wordMember]

theorem Encoding.anmd (r : Reg) (m : MemRef 17) : Encoding.Statement (.anmd r m) := by
  intro _
  show some ((WordFields.doubleMember 0b100001#6 r m).typed (.anmb r) (.anmh r) (.anmw r) (.anmd r)) = _
  rw [WordFields.typed_doubleMember]

theorem Encoding.anr (s : Reg) (d : Reg) : Encoding.Statement (.anr s d) := by
  intro _
  rfl

theorem Encoding.ormb (r : Reg) (m : MemRef 19) : Encoding.Statement (.ormb r m) := by
  intro _
  show some ((WordFields.byteMember 0b100010#6 r m).typed (.ormb r) (.ormh r) (.ormw r) (.ormd r)) = _
  rw [WordFields.typed_byteMember]

theorem Encoding.ormh (r : Reg) (m : MemRef 18) : Encoding.Statement (.ormh r m) := by
  intro _
  show some ((WordFields.halfMember 0b100010#6 r m).typed (.ormb r) (.ormh r) (.ormw r) (.ormd r)) = _
  rw [WordFields.typed_halfMember]

theorem Encoding.ormw (r : Reg) (m : MemRef 17) : Encoding.Statement (.ormw r m) := by
  intro _
  show some ((WordFields.wordMember 0b100010#6 r m).typed (.ormb r) (.ormh r) (.ormw r) (.ormd r)) = _
  rw [WordFields.typed_wordMember]

theorem Encoding.ormd (r : Reg) (m : MemRef 17) : Encoding.Statement (.ormd r m) := by
  intro _
  show some ((WordFields.doubleMember 0b100010#6 r m).typed (.ormb r) (.ormh r) (.ormw r) (.ormd r)) = _
  rw [WordFields.typed_doubleMember]

theorem Encoding.orr (s : Reg) (d : Reg) : Encoding.Statement (.orr s d) := by
  intro _
  rfl

theorem Encoding.orrm (s : Reg) (d : Reg) : Encoding.Statement (.orrm s d) := by
  intro _
  rfl

theorem Encoding.eomb (r : Reg) (m : MemRef 19) : Encoding.Statement (.eomb r m) := by
  intro _
  show some ((WordFields.byteMember 0b100011#6 r m).typed (.eomb r) (.eomh r) (.eomw r) (.eomd r)) = _
  rw [WordFields.typed_byteMember]

theorem Encoding.eomh (r : Reg) (m : MemRef 18) : Encoding.Statement (.eomh r m) := by
  intro _
  show some ((WordFields.halfMember 0b100011#6 r m).typed (.eomb r) (.eomh r) (.eomw r) (.eomd r)) = _
  rw [WordFields.typed_halfMember]

theorem Encoding.eomw (r : Reg) (m : MemRef 17) : Encoding.Statement (.eomw r m) := by
  intro _
  show some ((WordFields.wordMember 0b100011#6 r m).typed (.eomb r) (.eomh r) (.eomw r) (.eomd r)) = _
  rw [WordFields.typed_wordMember]

theorem Encoding.eomd (r : Reg) (m : MemRef 17) : Encoding.Statement (.eomd r m) := by
  intro _
  show some ((WordFields.doubleMember 0b100011#6 r m).typed (.eomb r) (.eomh r) (.eomw r) (.eomd r)) = _
  rw [WordFields.typed_doubleMember]

theorem Encoding.eor (s : Reg) (d : Reg) : Encoding.Statement (.eor s d) := by
  intro _
  rfl

theorem Encoding.eorm (s : Reg) (d : Reg) : Encoding.Statement (.eorm s d) := by
  intro _
  rfl

theorem Encoding.nor (s : Reg) (d : Reg) : Encoding.Statement (.nor s d) := by
  intro _
  rfl

theorem Encoding.nord (s : Reg) (d : Reg) : Encoding.Statement (.nord s d) := by
  intro _
  rfl

theorem Encoding.scz (s : Reg) (d : Reg) : Encoding.Statement (.scz s d) := by
  intro _
  rfl

theorem Encoding.sla (r : Reg) (n : BitVec 5) : Encoding.Statement (.sla r n) := by
  intro _
  show (if (HalfFields.shift 0b011011#6 r true n).shiftLeft then some (Instr.sla r (HalfFields.shift 0b011011#6 r true n).shiftCount) else some (Instr.sra r (HalfFields.shift 0b011011#6 r true n).shiftCount)) = _
  rw [HalfFields.shiftLeft_shift, HalfFields.shiftCount_shift]
  rfl

theorem Encoding.sll (r : Reg) (n : BitVec 5) : Encoding.Statement (.sll r n) := by
  intro _
  show (if (HalfFields.shift 0b011100#6 r true n).shiftLeft then some (Instr.sll r (HalfFields.shift 0b011100#6 r true n).shiftCount) else some (Instr.srl r (HalfFields.shift 0b011100#6 r true n).shiftCount)) = _
  rw [HalfFields.shiftLeft_shift, HalfFields.shiftCount_shift]
  rfl

theorem Encoding.slc (r : Reg) (n : BitVec 5) : Encoding.Statement (.slc r n) := by
  intro _
  show (if (HalfFields.shift 0b011101#6 r true n).shiftLeft then some (Instr.slc r (HalfFields.shift 0b011101#6 r true n).shiftCount) else some (Instr.src r (HalfFields.shift 0b011101#6 r true n).shiftCount)) = _
  rw [HalfFields.shiftLeft_shift, HalfFields.shiftCount_shift]
  rfl

theorem Encoding.slad (r : Reg) (n : BitVec 5) : Encoding.Statement (.slad r n) := by
  intro _
  show (if (HalfFields.shift 0b011110#6 r true n).shiftLeft then some (Instr.slad r (HalfFields.shift 0b011110#6 r true n).shiftCount) else some (Instr.srad r (HalfFields.shift 0b011110#6 r true n).shiftCount)) = _
  rw [HalfFields.shiftLeft_shift, HalfFields.shiftCount_shift]
  rfl

theorem Encoding.slld (r : Reg) (n : BitVec 5) : Encoding.Statement (.slld r n) := by
  intro _
  show (if (HalfFields.shift 0b011111#6 r true n).shiftLeft then some (Instr.slld r (HalfFields.shift 0b011111#6 r true n).shiftCount) else some (Instr.srld r (HalfFields.shift 0b011111#6 r true n).shiftCount)) = _
  rw [HalfFields.shiftLeft_shift, HalfFields.shiftCount_shift]
  rfl

theorem Encoding.sra (r : Reg) (n : BitVec 5) : Encoding.Statement (.sra r n) := by
  intro _
  show (if (HalfFields.shift 0b011011#6 r false n).shiftLeft then some (Instr.sla r (HalfFields.shift 0b011011#6 r false n).shiftCount) else some (Instr.sra r (HalfFields.shift 0b011011#6 r false n).shiftCount)) = _
  rw [HalfFields.shiftLeft_shift, HalfFields.shiftCount_shift]
  rfl

theorem Encoding.srl (r : Reg) (n : BitVec 5) : Encoding.Statement (.srl r n) := by
  intro _
  show (if (HalfFields.shift 0b011100#6 r false n).shiftLeft then some (Instr.sll r (HalfFields.shift 0b011100#6 r false n).shiftCount) else some (Instr.srl r (HalfFields.shift 0b011100#6 r false n).shiftCount)) = _
  rw [HalfFields.shiftLeft_shift, HalfFields.shiftCount_shift]
  rfl

theorem Encoding.src (r : Reg) (n : BitVec 5) : Encoding.Statement (.src r n) := by
  intro _
  show (if (HalfFields.shift 0b011101#6 r false n).shiftLeft then some (Instr.slc r (HalfFields.shift 0b011101#6 r false n).shiftCount) else some (Instr.src r (HalfFields.shift 0b011101#6 r false n).shiftCount)) = _
  rw [HalfFields.shiftLeft_shift, HalfFields.shiftCount_shift]
  rfl

theorem Encoding.srad (r : Reg) (n : BitVec 5) : Encoding.Statement (.srad r n) := by
  intro _
  show (if (HalfFields.shift 0b011110#6 r false n).shiftLeft then some (Instr.slad r (HalfFields.shift 0b011110#6 r false n).shiftCount) else some (Instr.srad r (HalfFields.shift 0b011110#6 r false n).shiftCount)) = _
  rw [HalfFields.shiftLeft_shift, HalfFields.shiftCount_shift]
  rfl

theorem Encoding.srld (r : Reg) (n : BitVec 5) : Encoding.Statement (.srld r n) := by
  intro _
  show (if (HalfFields.shift 0b011111#6 r false n).shiftLeft then some (Instr.slld r (HalfFields.shift 0b011111#6 r false n).shiftCount) else some (Instr.srld r (HalfFields.shift 0b011111#6 r false n).shiftCount)) = _
  rw [HalfFields.shiftLeft_shift, HalfFields.shiftCount_shift]
  rfl

theorem Encoding.sbm (c : BitVec 3) (m : MemRef 20) : Encoding.Statement (.sbm c m) := by
  intro _
  show some (Instr.sbm c (WordFields.fullMember 0b100110#6 c m).fullRef) = _
  rw [WordFields.fullRef_fullMember]

theorem Encoding.sbr (c : BitVec 3) (r : Reg) (b : BitVec 2) : Encoding.Statement (.sbr c r b) := by
  intro _
  show some (Instr.sbr c r ((0#2 ++ b).extractLsb' 0 2)) = _
  rw [extract_append_right]

theorem Encoding.zbm (c : BitVec 3) (m : MemRef 20) : Encoding.Statement (.zbm c m) := by
  intro _
  show some (Instr.zbm c (WordFields.fullMember 0b100111#6 c m).fullRef) = _
  rw [WordFields.fullRef_fullMember]

theorem Encoding.zbr (c : BitVec 3) (r : Reg) (b : BitVec 2) : Encoding.Statement (.zbr c r b) := by
  intro _
  show some (Instr.zbr c r ((0#2 ++ b).extractLsb' 0 2)) = _
  rw [extract_append_right]

theorem Encoding.abm (c : BitVec 3) (m : MemRef 20) : Encoding.Statement (.abm c m) := by
  intro _
  show some (Instr.abm c (WordFields.fullMember 0b101000#6 c m).fullRef) = _
  rw [WordFields.fullRef_fullMember]

theorem Encoding.abr (c : BitVec 3) (r : Reg) (b : BitVec 2) : Encoding.Statement (.abr c r b) := by
  intro _
  show some (Instr.abr c r ((0#2 ++ b).extractLsb' 0 2)) = _
  rw [extract_append_right]

theorem Encoding.tbm (c : BitVec 3) (m : MemRef 20) : Encoding.Statement (.tbm c m) := by
  intro _
  show some (Instr.tbm c (WordFields.fullMember 0b101001#6 c m).fullRef) = _
  rw [WordFields.fullRef_fullMember]

theorem Encoding.tbr (c : BitVec 3) (r : Reg) (b : BitVec 2) : Encoding.Statement (.tbr c r b) := by
  intro _
  show some (Instr.tbr c r ((0#2 ++ b).extractLsb' 0 2)) = _
  rw [extract_append_right]

theorem Encoding.admb (r : Reg) (m : MemRef 19) : Encoding.Statement (.admb r m) := by
  intro _
  show some ((WordFields.byteMember 0b101110#6 r m).typed (.admb r) (.admh r) (.admw r) (.admd r)) = _
  rw [WordFields.typed_byteMember]

theorem Encoding.admh (r : Reg) (m : MemRef 18) : Encoding.Statement (.admh r m) := by
  intro _
  show some ((WordFields.halfMember 0b101110#6 r m).typed (.admb r) (.admh r) (.admw r) (.admd r)) = _
  rw [WordFields.typed_halfMember]

theorem Encoding.admw (r : Reg) (m : MemRef 17) : Encoding.Statement (.admw r m) := by
  intro _
  show some ((WordFields.wordMember 0b101110#6 r m).typed (.admb r) (.admh r) (.admw r) (.admd r)) = _
  rw [WordFields.typed_wordMember]

theorem Encoding.admd (r : Reg) (m : MemRef 17) : Encoding.Statement (.admd r m) := by
  intro _
  show some ((WordFields.doubleMember 0b101110#6 r m).typed (.admb r) (.admh r) (.admw r) (.admd r)) = _
  rw [WordFields.typed_doubleMember]

theorem Encoding.adr (s : Reg) (d : Reg) : Encoding.Statement (.adr s d) := by
  intro _
  rfl

theorem Encoding.adrm (s : Reg) (d : Reg) : Encoding.Statement (.adrm s d) := by
  intro _
  rfl

theorem Encoding.armb (r : Reg) (m : MemRef 19) : Encoding.Statement (.armb r m) := by
  intro _
  show some ((WordFields.byteMember 0b111010#6 r m).typed (.armb r) (.armh r) (.armw r) (.armd r)) = _
  rw [WordFields.typed_byteMember]

theorem Encoding.armh (r : Reg) (m : MemRef 18) : Encoding.Statement (.armh r m) := by
  intro _
  show some ((WordFields.halfMember 0b111010#6 r m).typed (.armb r) (.armh r) (.armw r) (.armd r)) = _
  rw [WordFields.typed_halfMember]

theorem Encoding.armw (r : Reg) (m : MemRef 17) : Encoding.Statement (.armw r m) := by
  intro _
  show some ((WordFields.wordMember 0b111010#6 r m).typed (.armb r) (.armh r) (.armw r) (.armd r)) = _
  rw [WordFields.typed_wordMember]

theorem Encoding.armd (r : Reg) (m : MemRef 17) : Encoding.Statement (.armd r m) := by
  intro _
  show some ((WordFields.doubleMember 0b111010#6 r m).typed (.armb r) (.armh r) (.armw r) (.armd r)) = _
  rw [WordFields.typed_doubleMember]

theorem Encoding.adi (r : Reg) (v : Half) : Encoding.Statement (.adi r v) := by
  intro _
  show decodeGroupC8 (WordFields.packed 0b110010#6 r 0 1 v) = _
  unfold decodeGroupC8
  rw [WordFields.aug_packed, WordFields.imm_packed]
  rfl

theorem Encoding.sumb (r : Reg) (m : MemRef 19) : Encoding.Statement (.sumb r m) := by
  intro _
  show some ((WordFields.byteMember 0b101111#6 r m).typed (.sumb r) (.sumh r) (.sumw r) (.sumd r)) = _
  rw [WordFields.typed_byteMember]

theorem Encoding.sumh (r : Reg) (m : MemRef 18) : Encoding.Statement (.sumh r m) := by
  intro _
  show some ((WordFields.halfMember 0b101111#6 r m).typed (.sumb r) (.sumh r) (.sumw r) (.sumd r)) = _
  rw [WordFields.typed_halfMember]

theorem Encoding.sumw (r : Reg) (m : MemRef 17) : Encoding.Statement (.sumw r m) := by
  intro _
  show some ((WordFields.wordMember 0b101111#6 r m).typed (.sumb r) (.sumh r) (.sumw r) (.sumd r)) = _
  rw [WordFields.typed_wordMember]

theorem Encoding.sumd (r : Reg) (m : MemRef 17) : Encoding.Statement (.sumd r m) := by
  intro _
  show some ((WordFields.doubleMember 0b101111#6 r m).typed (.sumb r) (.sumh r) (.sumw r) (.sumd r)) = _
  rw [WordFields.typed_doubleMember]

theorem Encoding.sur (s : Reg) (d : Reg) : Encoding.Statement (.sur s d) := by
  intro _
  rfl

theorem Encoding.surm (s : Reg) (d : Reg) : Encoding.Statement (.surm s d) := by
  intro _
  rfl

theorem Encoding.sui (r : Reg) (v : Half) : Encoding.Statement (.sui r v) := by
  intro _
  show decodeGroupC8 (WordFields.packed 0b110010#6 r 0 2 v) = _
  unfold decodeGroupC8
  rw [WordFields.aug_packed, WordFields.imm_packed]
  rfl

theorem Encoding.mpmb (r : Reg) (m : MemRef 19) : Encoding.Statement (.mpmb r m) := by
  intro _
  show some ((WordFields.byteMember 0b110000#6 r m).typedWide (.mpmb r) (.mpmh r) (.mpmw r)) = _
  rw [WordFields.typedWide_byteMember]

theorem Encoding.mpmh (r : Reg) (m : MemRef 18) : Encoding.Statement (.mpmh r m) := by
  intro _
  show some ((WordFields.halfMember 0b110000#6 r m).typedWide (.mpmb r) (.mpmh r) (.mpmw r)) = _
  rw [WordFields.typedWide_halfMember]

theorem Encoding.mpmw (r : Reg) (m : MemRef 18) : Encoding.Statement (.mpmw r m) := by
  intro _
  show some ((WordFields.wideMember 0b110000#6 r m).typedWide (.mpmb r) (.mpmh r) (.mpmw r)) = _
  rw [WordFields.typedWide_wideMember]

theorem Encoding.mpr (s : Reg) (d : Reg) : Encoding.Statement (.mpr s d) := by
  intro _
  rfl

theorem Encoding.mpi (r : Reg) (v : Half) : Encoding.Statement (.mpi r v) := by
  intro _
  show decodeGroupC8 (WordFields.packed 0b110010#6 r 0 3 v) = _
  unfold decodeGroupC8
  rw [WordFields.aug_packed, WordFields.imm_packed]
  rfl

theorem Encoding.dvmb (r : Reg) (m : MemRef 19) : Encoding.Statement (.dvmb r m) := by
  intro _
  show some ((WordFields.byteMember 0b110001#6 r m).typedWide (.dvmb r) (.dvmh r) (.dvmw r)) = _
  rw [WordFields.typedWide_byteMember]

theorem Encoding.dvmh (r : Reg) (m : MemRef 18) : Encoding.Statement (.dvmh r m) := by
  intro _
  show some ((WordFields.halfMember 0b110001#6 r m).typedWide (.dvmb r) (.dvmh r) (.dvmw r)) = _
  rw [WordFields.typedWide_halfMember]

theorem Encoding.dvmw (r : Reg) (m : MemRef 18) : Encoding.Statement (.dvmw r m) := by
  intro _
  show some ((WordFields.wideMember 0b110001#6 r m).typedWide (.dvmb r) (.dvmh r) (.dvmw r)) = _
  rw [WordFields.typedWide_wideMember]

theorem Encoding.dvr (s : Reg) (d : Reg) : Encoding.Statement (.dvr s d) := by
  intro _
  rfl

theorem Encoding.dvi (r : Reg) (v : Half) : Encoding.Statement (.dvi r v) := by
  intro _
  show decodeGroupC8 (WordFields.packed 0b110010#6 r 0 4 v) = _
  unfold decodeGroupC8
  rw [WordFields.aug_packed, WordFields.imm_packed]
  rfl

theorem Encoding.es (d : Reg) : Encoding.Statement (.es d) := by
  intro _
  rfl

theorem Encoding.rnd (d : Reg) : Encoding.Statement (.rnd d) := by
  intro _
  rfl

theorem Encoding.adfw (r : Reg) (m : MemRef 19) : Encoding.Statement (.adfw r m) := by
  intro h
  have h' : m.addr.extractLsb' 0 2 ≠ 0b10#2 := of_decide_eq_true h
  show some ((WordFields.floatWord 0b111000#6 r true m).floating (Instr.adfw r) (Instr.adfd r)) = _
  rw [WordFields.floating_floatWord _ _ _ _ _ _ h']

theorem Encoding.adfd (r : Reg) (m : MemRef 17) : Encoding.Statement (.adfd r m) := by
  intro _
  show some ((WordFields.floatDouble 0b111000#6 r true m).floating (Instr.adfw r) (Instr.adfd r)) = _
  rw [WordFields.floating_floatDouble]

theorem Encoding.sufw (r : Reg) (m : MemRef 19) : Encoding.Statement (.sufw r m) := by
  intro h
  have h' : m.addr.extractLsb' 0 2 ≠ 0b10#2 := of_decide_eq_true h
  show some ((WordFields.floatWord 0b111000#6 r false m).floating (Instr.sufw r) (Instr.sufd r)) = _
  rw [WordFields.floating_floatWord _ _ _ _ _ _ h']

theorem Encoding.sufd (r : Reg) (m : MemRef 17) : Encoding.Statement (.sufd r m) := by
  intro _
  show some ((WordFields.floatDouble 0b111000#6 r false m).floating (Instr.sufw r) (Instr.sufd r)) = _
  rw [WordFields.floating_floatDouble]

theorem Encoding.mpfw (r : Reg) (m : MemRef 19) : Encoding.Statement (.mpfw r m) := by
  intro h
  have h' : m.addr.extractLsb' 0 2 ≠ 0b10#2 := of_decide_eq_true h
  show some ((WordFields.floatWord 0b111001#6 r true m).floating (Instr.mpfw r) (Instr.mpfd r)) = _
  rw [WordFields.floating_floatWord _ _ _ _ _ _ h']

theorem Encoding.mpfd (r : Reg) (m : MemRef 17) : Encoding.Statement (.mpfd r m) := by
  intro _
  show some ((WordFields.floatDouble 0b111001#6 r true m).floating (Instr.mpfw r) (Instr.mpfd r)) = _
  rw [WordFields.floating_floatDouble]

theorem Encoding.dvfw (r : Reg) (m : MemRef 19) : Encoding.Statement (.dvfw r m) := by
  intro h
  have h' : m.addr.extractLsb' 0 2 ≠ 0b10#2 := of_decide_eq_true h
  show some ((WordFields.floatWord 0b111001#6 r false m).floating (Instr.dvfw r) (Instr.dvfd r)) = _
  rw [WordFields.floating_floatWord _ _ _ _ _ _ h']

theorem Encoding.dvfd (r : Reg) (m : MemRef 17) : Encoding.Statement (.dvfd r m) := by
  intro _
  show some ((WordFields.floatDouble 0b111001#6 r false m).floating (Instr.dvfw r) (Instr.dvfd r)) = _
  rw [WordFields.floating_floatDouble]

theorem Encoding.bri (m : MemRef 20) : Encoding.Statement (.bri m) := by
  intro _
  show some (Instr.bri (WordFields.fullMember 0b111110#6 2 m).fullRef) = _
  rw [WordFields.fullRef_fullMember]

theorem Encoding.lpsd (m : MemRef 20) : Encoding.Statement (.lpsd m) := by
  intro _
  show some (Instr.lpsd (WordFields.fullMember 0b111110#6 3 m).fullRef) = _
  rw [WordFields.fullRef_fullMember]

theorem Encoding.lcs (d : Reg) : Encoding.Statement (.lcs d) := by
  intro _
  rfl

theorem Encoding.lpsdcm (m : MemRef 20) : Encoding.Statement (.lpsdcm m) := by
  intro _
  show some (Instr.lpsdcm (WordFields.fullMember 0b111110#6 5 m).fullRef) = _
  rw [WordFields.fullRef_fullMember]

theorem Encoding.exr (s : Reg) : Encoding.Statement (.exr s) := by
  intro _
  show decodeGroupC8 (WordFields.packed 0b110010#6 s 0 7 0) = _
  unfold decodeGroupC8
  rw [WordFields.aug_packed, WordFields.upper4_packed, WordFields.imm_packed]
  rfl

theorem Encoding.exrr (s : Reg) : Encoding.Statement (.exrr s) := by
  intro _
  show decodeGroupC8 (WordFields.packed 0b110010#6 s 0 7 2) = _
  unfold decodeGroupC8
  rw [WordFields.aug_packed, WordFields.upper4_packed, WordFields.imm_packed]
  rfl

theorem Encoding.exm (m : MemRef 19) : Encoding.Statement (.exm m) := by
  intro _
  show (if (0 : Reg) = 0 ∧ false = false then some (Instr.exm (WordFields.floatWord 0b101010#6 0 false m).byteRef) else none) = _
  rw [WordFields.byteRef_floatWord]
  rfl

theorem Encoding.halt : Encoding.Statement .halt := by
  intro _
  rfl

theorem Encoding.wait : Encoding.Statement .wait := by
  intro _
  rfl

theorem Encoding.nop : Encoding.Statement .nop := by
  intro _
  rfl

theorem Encoding.sipu : Encoding.Statement .sipu := by
  intro _
  rfl

theorem Encoding.calm (flags : BitVec 10) : Encoding.Statement (.calm flags) := by
  intro _
  show some (Instr.calm (flags.extractLsb' 7 3 ++ flags.extractLsb' 4 3 ++ flags.extractLsb' 0 4)) = _
  rw [three_parts]

theorem Encoding.svc (ix : BitVec 4) (call : BitVec 12) : Encoding.Statement (.svc ix call) := by
  intro _
  show decodeGroupC8 (WordFields.packed 0b110010#6 0 0 6 (ix ++ call)) = _
  unfold decodeGroupC8
  rw [WordFields.aug_packed, WordFields.upper4_packed, WordFields.imm_packed]
  show some (Instr.svc ((ix ++ call).extractLsb' 12 4) ((ix ++ call).extractLsb' 0 12)) = _
  rw [extract_append_right, (extract_append_left ix call 0 4).trans (extract_all ix)]

theorem Encoding.setcpu (s : Reg) : Encoding.Statement (.setcpu s) := by
  intro _
  rfl

theorem Encoding.rdsts (d : Reg) : Encoding.Statement (.rdsts d) := by
  intro _
  rfl

theorem Encoding.eae : Encoding.Statement .eae := by
  intro _
  rfl

theorem Encoding.dae : Encoding.Statement .dae := by
  intro _
  rfl

theorem Encoding.ei (l : BitVec 7) : Encoding.Statement (.ei l) := by
  intro _
  show decodeGroupFC (WordFields.packed 0b111111#6 (l.extractLsb' 4 3) (l.extractLsb' 0 4) 0 0) = _
  unfold decodeGroupFC
  rw [WordFields.aug_packed, WordFields.upper7_packed]
  rfl

theorem Encoding.di (l : BitVec 7) : Encoding.Statement (.di l) := by
  intro _
  show decodeGroupFC (WordFields.packed 0b111111#6 (l.extractLsb' 4 3) (l.extractLsb' 0 4) 1 0) = _
  unfold decodeGroupFC
  rw [WordFields.aug_packed, WordFields.upper7_packed]
  rfl

theorem Encoding.ri (l : BitVec 7) : Encoding.Statement (.ri l) := by
  intro _
  show decodeGroupFC (WordFields.packed 0b111111#6 (l.extractLsb' 4 3) (l.extractLsb' 0 4) 2 0) = _
  unfold decodeGroupFC
  rw [WordFields.aug_packed, WordFields.upper7_packed]
  rfl

theorem Encoding.ai (l : BitVec 7) : Encoding.Statement (.ai l) := by
  intro _
  show decodeGroupFC (WordFields.packed 0b111111#6 (l.extractLsb' 4 3) (l.extractLsb' 0 4) 3 0) = _
  unfold decodeGroupFC
  rw [WordFields.aug_packed, WordFields.upper7_packed]
  rfl

theorem Encoding.dai (l : BitVec 7) : Encoding.Statement (.dai l) := by
  intro _
  show decodeGroupFC (WordFields.packed 0b111111#6 (l.extractLsb' 4 3) (l.extractLsb' 0 4) 4 0) = _
  unfold decodeGroupFC
  rw [WordFields.aug_packed, WordFields.upper7_packed]
  rfl

theorem Encoding.eci (r : Reg) (k : Half) : Encoding.Statement (.eci r k) := by
  intro _
  show decodeGroupFC (WordFields.packed 0b111111#6 r 12 7 k) = _
  unfold decodeGroupFC
  rw [WordFields.aug_packed]
  show decodeClassF (WordFields.packed 0b111111#6 r 12 7 k) = _
  unfold decodeClassF
  rw [WordFields.upper4_packed, WordFields.imm_packed]
  rfl

theorem Encoding.dci (r : Reg) (k : Half) : Encoding.Statement (.dci r k) := by
  intro _
  show decodeGroupFC (WordFields.packed 0b111111#6 r 13 7 k) = _
  unfold decodeGroupFC
  rw [WordFields.aug_packed]
  show decodeClassF (WordFields.packed 0b111111#6 r 13 7 k) = _
  unfold decodeClassF
  rw [WordFields.upper4_packed, WordFields.imm_packed]
  rfl

theorem Encoding.aci (r : Reg) (k : Half) : Encoding.Statement (.aci r k) := by
  intro _
  show decodeGroupFC (WordFields.packed 0b111111#6 r 14 7 k) = _
  unfold decodeGroupFC
  rw [WordFields.aug_packed]
  show decodeClassF (WordFields.packed 0b111111#6 r 14 7 k) = _
  unfold decodeClassF
  rw [WordFields.upper4_packed, WordFields.imm_packed]
  rfl

theorem Encoding.daci (r : Reg) (k : Half) : Encoding.Statement (.daci r k) := by
  intro _
  show decodeGroupFC (WordFields.packed 0b111111#6 r 15 7 k) = _
  unfold decodeGroupFC
  rw [WordFields.aug_packed]
  show decodeClassF (WordFields.packed 0b111111#6 r 15 7 k) = _
  unfold decodeClassF
  rw [WordFields.upper4_packed, WordFields.imm_packed]
  rfl

theorem Encoding.bei : Encoding.Statement .bei := by
  intro _
  rfl

theorem Encoding.uei : Encoding.Statement .uei := by
  intro _
  rfl

theorem Encoding.cd (n : BitVec 7) (f : Half) : Encoding.Statement (.cd n f) := by
  intro _
  show decodeGroupFC (WordFields.packed 0b111111#6 (n.extractLsb' 4 3) (n.extractLsb' 0 4) 6 f) = _
  unfold decodeGroupFC
  rw [WordFields.aug_packed, WordFields.upper7_packed, WordFields.imm_packed]
  rfl

theorem Encoding.td (n : BitVec 7) (f : Half) : Encoding.Statement (.td n f) := by
  intro _
  show decodeGroupFC (WordFields.packed 0b111111#6 (n.extractLsb' 4 3) (n.extractLsb' 0 4) 5 f) = _
  unfold decodeGroupFC
  rw [WordFields.aug_packed, WordFields.upper7_packed, WordFields.imm_packed]
  rfl

theorem Encoding.sio (r : Reg) (k : Half) : Encoding.Statement (.sio r k) := by
  intro _
  show decodeGroupFC (WordFields.packed 0b111111#6 r 2 7 k) = _
  unfold decodeGroupFC
  rw [WordFields.aug_packed]
  show decodeClassF (WordFields.packed 0b111111#6 r 2 7 k) = _
  unfold decodeClassF
  rw [WordFields.upper4_packed, WordFields.imm_packed]
  rfl

theorem Encoding.tio (r : Reg) (k : Half) : Encoding.Statement (.tio r k) := by
  intro _
  show decodeGroupFC (WordFields.packed 0b111111#6 r 3 7 k) = _
  unfold decodeGroupFC
  rw [WordFields.aug_packed]
  show decodeClassF (WordFields.packed 0b111111#6 r 3 7 k) = _
  unfold decodeClassF
  rw [WordFields.upper4_packed, WordFields.imm_packed]
  rfl

theorem Encoding.stpio (r : Reg) (k : Half) : Encoding.Statement (.stpio r k) := by
  intro _
  show decodeGroupFC (WordFields.packed 0b111111#6 r 4 7 k) = _
  unfold decodeGroupFC
  rw [WordFields.aug_packed]
  show decodeClassF (WordFields.packed 0b111111#6 r 4 7 k) = _
  unfold decodeClassF
  rw [WordFields.upper4_packed, WordFields.imm_packed]
  rfl

theorem Encoding.rschnl (r : Reg) (k : Half) : Encoding.Statement (.rschnl r k) := by
  intro _
  show decodeGroupFC (WordFields.packed 0b111111#6 r 5 7 k) = _
  unfold decodeGroupFC
  rw [WordFields.aug_packed]
  show decodeClassF (WordFields.packed 0b111111#6 r 5 7 k) = _
  unfold decodeClassF
  rw [WordFields.upper4_packed, WordFields.imm_packed]
  rfl

theorem Encoding.hio (r : Reg) (k : Half) : Encoding.Statement (.hio r k) := by
  intro _
  show decodeGroupFC (WordFields.packed 0b111111#6 r 6 7 k) = _
  unfold decodeGroupFC
  rw [WordFields.aug_packed]
  show decodeClassF (WordFields.packed 0b111111#6 r 6 7 k) = _
  unfold decodeClassF
  rw [WordFields.upper4_packed, WordFields.imm_packed]
  rfl

theorem Encoding.grio (r : Reg) (k : Half) : Encoding.Statement (.grio r k) := by
  intro _
  show decodeGroupFC (WordFields.packed 0b111111#6 r 7 7 k) = _
  unfold decodeGroupFC
  rw [WordFields.aug_packed]
  show decodeClassF (WordFields.packed 0b111111#6 r 7 7 k) = _
  unfold decodeClassF
  rw [WordFields.upper4_packed, WordFields.imm_packed]
  rfl

theorem Encoding.rsctl (r : Reg) (k : Half) : Encoding.Statement (.rsctl r k) := by
  intro _
  show decodeGroupFC (WordFields.packed 0b111111#6 r 8 7 k) = _
  unfold decodeGroupFC
  rw [WordFields.aug_packed]
  show decodeClassF (WordFields.packed 0b111111#6 r 8 7 k) = _
  unfold decodeClassF
  rw [WordFields.upper4_packed, WordFields.imm_packed]
  rfl

theorem Encoding.ecwcs (r : Reg) (k : Half) : Encoding.Statement (.ecwcs r k) := by
  intro _
  show decodeGroupFC (WordFields.packed 0b111111#6 r 9 7 k) = _
  unfold decodeGroupFC
  rw [WordFields.aug_packed]
  show decodeClassF (WordFields.packed 0b111111#6 r 9 7 k) = _
  unfold decodeClassF
  rw [WordFields.upper4_packed, WordFields.imm_packed]
  rfl

theorem Encoding.wcwcs (r : Reg) (k : Half) : Encoding.Statement (.wcwcs r k) := by
  intro _
  show decodeGroupFC (WordFields.packed 0b111111#6 r 11 7 k) = _
  unfold decodeGroupFC
  rw [WordFields.aug_packed]
  show decodeClassF (WordFields.packed 0b111111#6 r 11 7 k) = _
  unfold decodeClassF
  rw [WordFields.upper4_packed, WordFields.imm_packed]
  rfl

end Sys2Proof.Laws
end

