-- ==== Sys2Proof/Tests/Slice0.lean ====
section
/-! SUPPORT. Tests: the checks of WellFormed refuse; words written out from the encodings decode; one step of each
instruction on a small state; and for every statement with hypotheses a state and operands that meet them. Expected
results come from spec/95_test_vectors.md and spec/96_test_vectors_instruction_pages.md, or by hand from the rule named. -/

open Sys2Proof Sys2Proof.Machine

/-! ## Well-formedness -/

theorem test_zr_ill_formed : ∀ d, wellFormed (.zr d) = false := by decide
theorem test_bct_zero_ill_formed : wellFormed (.bct 0 ⟨0, false, 0x2000⟩) = false ∧ wellFormed (.bct 1 ⟨0, false, 0x2000⟩) = true := by decide
theorem test_bcf_zero_ill_formed : wellFormed (.bcf 0 ⟨0, false, 0x2000⟩) = false ∧ wellFormed (.bcf 7 ⟨0, false, 0x2000⟩) = true := by decide
theorem test_fp_word_with_double_bits_ill_formed :
    wellFormed (.adfw 1 ⟨0, false, 0x202⟩) = false ∧ wellFormed (.sufw 1 ⟨0, false, 0x202⟩) = false ∧
    wellFormed (.mpfw 1 ⟨0, false, 0x202⟩) = false ∧ wellFormed (.dvfw 1 ⟨0, false, 0x202⟩) = false ∧
    wellFormed (.adfw 1 ⟨0, false, 0x200⟩) = true := by decide

/-! ## Decoding, from 30_encoding.md -/

theorem test_decode_load_store :
    decode (.word 0xAE48EB43) = some (.lb 4 ⟨2, false, 0xEB43⟩) ∧
    decode (.word 0xAFE0658B) = some (.lh 7 ⟨3, false, 0x32C5⟩) ∧
    decode (.word 0xAD15E91C) = some (.lw 2 ⟨0, true, 0x17A47⟩) ∧
    decode (.word 0xAEA30726) = some (.ld 5 ⟨1, false, 0xC1C9⟩) ∧
    decode (.word 0xB04E094B) = some (.lmb 0 ⟨2, false, 0x6094B⟩) ∧
    decode (.word 0xB1F2A19B) = some (.lmh 3 ⟨3, true, 0x150CD⟩) ∧
    decode (.word 0xB302613C) = some (.lmw 6 ⟨0, false, 0x984F⟩) ∧
    decode (.word 0xB0A77F46) = some (.lmd 1 ⟨1, false, 0x1DFD1⟩) ∧
    decode (.word 0xB65B2753) = some (.lnb 4 ⟨2, true, 0x32753⟩) ∧
    decode (.word 0xB7E4DDAB) = some (.lnh 7 ⟨3, false, 0x26ED5⟩) ∧
    decode (.word 0xB506D95C) = some (.lnw 2 ⟨0, false, 0x1B657⟩) ∧
    decode (.word 0xB6B3F766) = some (.lnd 5 ⟨1, true, 0xFDD9⟩) ∧
    decode (.word 0xC8004397) = some (.li 0 0x4397) ∧
    decode (.word 0xD1E38CDD) = some (.lea 3 ⟨3, false, 0x38CDD⟩) ∧
    decode (.word 0x831ED45F) = some (.lear 6 ⟨0, true, 0xED45F⟩) ∧
    decode (.word 0x34AA1BE1) = some (.la 1 ⟨1, false, 0xA1BE1⟩) ∧
    decode (.word 0xCE456363) = some (.lf 4 ⟨2, false, 0x56363⟩) ∧
    decode (.word 0xD7F8AAE5) = some (.stb 7 ⟨3, true, 0xAAE5⟩) ∧
    decode (.word 0xD507E4CF) = some (.sth 2 ⟨0, false, 0x3F267⟩) ∧
    decode (.word 0xD6A4E7A4) = some (.stw 5 ⟨1, false, 0x139E9⟩) ∧
    decode (.word 0xD45205AE) = some (.std 0 ⟨2, true, 0x816B⟩) ∧
    decode (.word 0xD9EDC8ED) = some (.stmb 3 ⟨3, false, 0x5C8ED⟩) ∧
    decode (.word 0xDB0220DF) = some (.stmh 6 ⟨0, false, 0x1106F⟩) ∧
    decode (.word 0xD8B15FC4) = some (.stmw 1 ⟨1, true, 0x57F1⟩) ∧
    decode (.word 0xDA467DCE) = some (.stmd 4 ⟨2, false, 0x19F73⟩) ∧
    decode (.word 0xDFEAE6F5) = some (.stf 7 ⟨3, false, 0xAE6F5⟩) ∧
    decode (.word 0xF81E2E77) = some (.zmb ⟨0, true, 0x62E77⟩) ∧
    decode (.word 0xF822EBF3) = some (.zmh ⟨1, false, 0x175F9⟩) ∧
    decode (.word 0xF842F5EC) = some (.zmw ⟨2, false, 0xBD7B⟩) ∧
    decode (.word 0xF87013F6) = some (.zmd ⟨3, true, 0x4FD⟩) := by decide

theorem test_decode_register_transfer :
    decode (.half 0x2C6F) = some (.tscr 6 0) ∧
    decode (.half 0x2D9E) = some (.trsc 1 3) ∧
    decode (.half 0x2F40) = some (.trr 4 6) ∧
    decode (.half 0x2CF8) = some (.trrm 7 1) ∧
    decode (.word 0xFB5C0000) = some (.trp 11 4) ∧
    decode (.word 0xFBDF0000) = some (.tpr 11 7) ∧
    decode (.half 0x2D04) = some (.trn 0 2) ∧
    decode (.half 0x2EBC) = some (.trnm 3 5) ∧
    decode (.half 0x2C63) = some (.trc 6 0) ∧
    decode (.half 0x2D9B) = some (.trcm 1 3) ∧
    decode (.half 0x2F45) = some (.xcr 4 6) ∧
    decode (.half 0x2CFD) = some (.xcrm 7 1) ∧
    decode (.half 0x2900) = some (.trsw 2) := by decide

theorem test_decode_memory_management :
    decode (.half 0x000D) = some .sea ∧
    decode (.half 0x000F) = some .cea ∧
    decode (.word 0x2D870000) = some (.lmap 3) ∧
    decode (.half 0x2C6A) = some (.tmapr 6 0) := by decide

theorem test_decode_wcs :
    decode (.half 0x019C) = some (.wwcs 1 3) ∧
    decode (.half 0x034B) = some (.rwcs 4 6) ∧
    decode (.word 0xFA699B25) = some (.jwcs ⟨3, false, 0x99B25⟩) := by decide

theorem test_decode_branch :
    decode (.word 0xEC14E2A7) = some (.bu ⟨0, true, 0x4E2A7⟩) ∧
    decode (.word 0xEEA02A29) = some (.bct 5 ⟨1, false, 0x2A29⟩) ∧
    decode (.word 0xF34B71AB) = some (.bcf 6 ⟨2, false, 0xB71AB⟩) ∧
    decode (.word 0xF076B92D) = some (.bft ⟨3, true, 0x6B92D⟩) ∧
    decode (.word 0xF88200AF) = some (.bl ⟨0, false, 0x200AF⟩) ∧
    decode (.word 0xF49D4831) = some (.bib 1 true 0xD4831) ∧
    decode (.word 0xF6388FB3) = some (.bih 4 true 0x88FB3) ∧
    decode (.word 0xF7D3D735) = some (.biw 7 true 0x3D735) ∧
    decode (.word 0xF57F1EB7) = some (.bid 2 true 0xF1EB7) := by decide

theorem test_decode_compare :
    decode (.word 0x92BA6639) = some (.camb 5 ⟨1, true, 0x26639⟩) ∧
    decode (.word 0x90435B77) = some (.camh 0 ⟨2, false, 0x1ADBB⟩) ∧
    decode (.word 0x91E3D4F4) = some (.camw 3 ⟨3, false, 0xF53D⟩) ∧
    decode (.word 0x9310F2FE) = some (.camd 6 ⟨0, true, 0x3CBF⟩) ∧
    decode (.half 0x1190) = some (.car 1 3) ∧
    decode (.word 0xCA05E91F) = some (.ci 4 0xE91F) ∧
    decode (.word 0x97FE1345) = some (.cmmb 7 ⟨3, true, 0x61345⟩) ∧
    decode (.word 0x9502B58F) = some (.cmmh 2 ⟨0, false, 0x15AC7⟩) ∧
    decode (.word 0x96A28924) = some (.cmmw 5 ⟨1, false, 0xA249⟩) ∧
    decode (.word 0x9457A72E) = some (.cmmd 0 ⟨2, true, 0x1E9CB⟩) ∧
    decode (.half 0x16B0) = some (.cmr 3 5) := by decide

theorem test_decode_logical :
    decode (.word 0x870E78CF) = some (.anmb 6 ⟨0, false, 0x678CF⟩) ∧
    decode (.word 0x84B380A3) = some (.anmh 1 ⟨1, true, 0x1C051⟩) ∧
    decode (.word 0x86441F4C) = some (.anmw 4 ⟨2, false, 0x107D3⟩) ∧
    decode (.word 0x87E13D56) = some (.anmd 7 ⟨3, false, 0x4F55⟩) ∧
    decode (.half 0x0620) = some (.anr 2 4) ∧
    decode (.word 0x8AAEDE59) = some (.ormb 5 ⟨1, false, 0x6DE59⟩) ∧
    decode (.word 0x88444BB7) = some (.ormh 0 ⟨2, false, 0x225DB⟩) ∧
    decode (.word 0x89F5B574) = some (.ormw 3 ⟨3, true, 0x16D5D⟩) ∧
    decode (.word 0x8B02D37E) = some (.ormd 6 ⟨0, false, 0xB4DF⟩) ∧
    decode (.half 0x0990) = some (.orr 1 3) ∧
    decode (.half 0x0B48) = some (.orrm 4 6) ∧
    decode (.word 0x8FEA8B65) = some (.eomb 7 ⟨3, false, 0x28B65⟩) ∧
    decode (.word 0x8D03A5CF) = some (.eomh 2 ⟨0, false, 0x1D2E7⟩) ∧
    decode (.word 0x8EB469A4) = some (.eomw 5 ⟨1, true, 0x11A69⟩) ∧
    decode (.word 0x8C4187AE) = some (.eomd 0 ⟨2, false, 0x61EB⟩) ∧
    decode (.half 0x0EB0) = some (.eor 3 5) ∧
    decode (.half 0x0C68) = some (.eorm 6 0) := by decide

theorem test_decode_shift :
    decode (.half 0x60B0) = some (.nor 1 3) ∧
    decode (.half 0x6660) = some (.nord 4 6) ∧
    decode (.half 0x6B90) = some (.scz 7 1) ∧
    decode (.half 0x6D5D) = some (.sla 2 29) ∧
    decode (.half 0x72C4) = some (.sll 5 4) ∧
    decode (.half 0x744B) = some (.slc 0 11) ∧
    decode (.half 0x79D2) = some (.slad 3 18) ∧
    decode (.half 0x7F59) = some (.slld 6 25) ∧
    decode (.half 0x6C80) = some (.sra 1 0) ∧
    decode (.half 0x7207) = some (.srl 4 7) ∧
    decode (.half 0x778E) = some (.src 7 14) ∧
    decode (.half 0x7915) = some (.srad 2 21) ∧
    decode (.half 0x7E9C) = some (.srld 5 28) := by decide

theorem test_decode_bit_manipulation :
    decode (.word 0x9B48DA0B) = some (.sbm 6 ⟨2, false, 0x8DA0B⟩) ∧
    decode (.half 0x18D2) = some (.sbr 1 5 2) ∧
    decode (.word 0x9D0F690F) = some (.zbm 2 ⟨0, false, 0xF690F⟩) ∧
    decode (.half 0x1DB2) = some (.zbr 3 3 2) ∧
    decode (.word 0xA25DF813) = some (.abm 4 ⟨2, true, 0xDF813⟩) ∧
    decode (.half 0x2292) = some (.abr 5 1 2) ∧
    decode (.word 0xA70C8717) = some (.tbm 6 ⟨0, false, 0xC8717⟩) ∧
    decode (.half 0x24F2) = some (.tbr 1 7 2) := by decide

theorem test_decode_fixed_point :
    decode (.word 0xB84B161B) = some (.admb 0 ⟨2, false, 0x3161B⟩) ∧
    decode (.word 0xB9E4BB3B) = some (.admh 3 ⟨3, false, 0x25D9D⟩) ∧
    decode (.word 0xBB16947C) = some (.admw 6 ⟨0, true, 0x1A51F⟩) ∧
    decode (.word 0xB8A3B286) = some (.admd 1 ⟨1, false, 0xECA1⟩) ∧
    decode (.half 0x3B40) = some (.adr 4 6) ∧
    decode (.half 0x38F8) = some (.adrm 7 1) ∧
    decode (.word 0xE90EC327) = some (.armb 2 ⟨0, false, 0x6C327⟩) ∧
    decode (.word 0xEAA41553) = some (.armh 5 ⟨1, false, 0x20AA9⟩) ∧
    decode (.word 0xE85548AC) = some (.armw 0 ⟨2, true, 0x1522B⟩) ∧
    decode (.word 0xE9E266B6) = some (.armd 3 ⟨3, false, 0x99AD⟩) ∧
    decode (.word 0xCB01F77B) = some (.adi 6 0xF77B) ∧
    decode (.word 0xBCBF28B1) = some (.sumb 1 ⟨1, true, 0x728B1⟩) ∧
    decode (.word 0xBE44E067) = some (.sumh 4 ⟨2, false, 0x27033⟩) ∧
    decode (.word 0xBFE6DED4) = some (.sumw 7 ⟨3, false, 0x1B7B5⟩) ∧
    decode (.word 0xBD13FCDE) = some (.sumd 2 ⟨0, true, 0xFF37⟩) ∧
    decode (.half 0x3FD0) = some (.sur 5 7) ∧
    decode (.half 0x3D08) = some (.surm 0 2) ∧
    decode (.word 0xC9826661) = some (.sui 3 0x6661) ∧
    decode (.word 0xC30E1D3F) = some (.mpmb 6 ⟨0, false, 0x61D3F⟩) ∧
    decode (.word 0xC0A2C983) = some (.mpmh 1 ⟨1, false, 0x164C1⟩) ∧
    decode (.word 0xC2515886) = some (.mpmw 4 ⟨2, true, 0xAC43⟩) ∧
    decode (.half 0x40F0) = some (.mpr 7 1) ∧
    decode (.word 0xC9036C73) = some (.mpi 2 0x6C73) ∧
    decode (.word 0xC6BE82C9) = some (.dvmb 5 ⟨1, true, 0x682C9⟩) ∧
    decode (.word 0xC4439497) = some (.dvmh 0 ⟨2, false, 0x1CA4B⟩) ∧
    decode (.word 0xC5E2239A) = some (.dvmw 3 ⟨3, false, 0x111CD⟩) ∧
    decode (.half 0x4460) = some (.dvr 6 0) ∧
    decode (.word 0xC8847285) = some (.dvi 1 0x7285) ∧
    decode (.half 0x0204) = some (.es 4) ∧
    decode (.half 0x0385) = some (.rnd 7) := by decide

theorem test_decode_floating_point :
    decode (.word 0xE10D7754) = some (.adfw 2 ⟨0, false, 0x57754⟩) ∧
    decode (.word 0xE2AAFB66) = some (.adfd 5 ⟨1, false, 0xBED9⟩) ∧
    decode (.word 0xE0540658) = some (.sufw 0 ⟨2, true, 0x40658⟩) ∧
    decode (.word 0xE1E53776) = some (.sufd 3 ⟨3, false, 0x14DDD⟩) ∧
    decode (.word 0xE70A955C) = some (.mpfw 6 ⟨0, false, 0x2955C⟩) ∧
    decode (.word 0xE4BF7386) = some (.mpfd 1 ⟨1, true, 0x1DCE1⟩) ∧
    decode (.word 0xE6412460) = some (.dvfw 4 ⟨2, false, 0x12460⟩) ∧
    decode (.word 0xE7E1AF96) = some (.dvfd 7 ⟨3, false, 0x6BE5⟩) := by decide

theorem test_decode_control :
    decode (.word 0xF91FB367) = some (.bri ⟨0, true, 0xFB367⟩) ∧
    decode (.word 0xF9AAFAE9) = some (.lpsd ⟨1, false, 0xAFAE9⟩) ∧
    decode (.half 0x0003) = some (.lcs 0) ∧
    decode (.word 0xFAF189ED) = some (.lpsdcm ⟨3, true, 0x189ED⟩) ∧
    decode (.word 0xCB070000) = some (.exr 6) ∧
    decode (.word 0xC8870002) = some (.exrr 1) ∧
    decode (.word 0xA8536073) = some (.exm ⟨2, true, 0x36073⟩) ∧
    decode (.half 0x0000) = some .halt ∧
    decode (.half 0x0001) = some .wait ∧
    decode (.half 0x0002) = some .nop ∧
    decode (.half 0x000A) = some .sipu ∧
    decode (.half 0x3155) = some (.calm 0x155) ∧
    decode (.word 0xC80695A3) = some (.svc 9 0x5A3) ∧
    decode (.half 0x2C19) = some (.setcpu 1) ∧
    decode (.half 0x0209) = some (.rdsts 4) ∧
    decode (.half 0x0008) = some .eae ∧
    decode (.half 0x000E) = some .dae := by decide

theorem test_decode_interrupt :
    decode (.word 0xFED80000) = some (.ei 0x5B) ∧
    decode (.word 0xFED90000) = some (.di 0x5B) ∧
    decode (.word 0xFEDA0000) = some (.ri 0x5B) ∧
    decode (.word 0xFEDB0000) = some (.ai 0x5B) ∧
    decode (.word 0xFEDC0000) = some (.dai 0x5B) ∧
    decode (.word 0xFE67342F) = some (.eci 4 0x342F) ∧
    decode (.word 0xFFEF6899) = some (.dci 7 0x6899) ∧
    decode (.word 0xFD779D03) = some (.aci 2 0x9D03) ∧
    decode (.word 0xFEFFD16D) = some (.daci 5 0xD16D) ∧
    decode (.half 0x0006) = some .bei ∧
    decode (.half 0x0007) = some .uei := by decide

theorem test_decode_input_output :
    decode (.word 0xFF6E6EAB) = some (.cd 0x6D 0x6EAB) ∧
    decode (.word 0xFF6DA315) = some (.td 0x6D 0xA315) ∧
    decode (.word 0xFE17D77F) = some (.sio 4 0xD77F) ∧
    decode (.word 0xFF9F0BE9) = some (.tio 7 0xBE9) ∧
    decode (.word 0xFD274053) = some (.stpio 2 0x4053) ∧
    decode (.word 0xFEAF74BD) = some (.rschnl 5 0x74BD) ∧
    decode (.word 0xFC37A927) = some (.hio 0 0xA927) ∧
    decode (.word 0xFDBFDD91) = some (.grio 3 0xDD91) ∧
    decode (.word 0xFF4711FB) = some (.rsctl 6 0x11FB) ∧
    decode (.word 0xFCCF4665) = some (.ecwcs 1 0x4665) ∧
    decode (.word 0xFE5F7ACF) = some (.wcwcs 4 0x7ACF) := by decide

/-- ZR is EOR of a register with itself: the decoder answers EOR, and the two have one meaning (R231, R148). -/
theorem test_decode_zr : decode (.half 0x0C90) = some (.eor 1 1) := by decide

/-! ## One step of an instruction -/

/-- Real memory with runs of bytes written. -/
def Tests.put (s : State) (l : List (Nat × List Nat)) : State :=
  l.foldl (fun s p => { s with
    mem := (p.2.foldl (fun (q : List Host.Cell × Nat) b => (Memory.write q.1 q.2 (BitVec.ofNat 8 b), q.2 + 1)) (s.mem, p.1)).1 }) s

/-- Words of real memory written. -/
def Tests.words (s : State) (l : List (Nat × Nat)) : State :=
  Tests.put s (l.map fun p => (p.1, [p.2 / 2 ^ 24, p.2 / 2 ^ 16, p.2 / 2 ^ 8, p.2]))

/-- Registers set. -/
def Tests.regs (s : State) (l : List (Nat × Nat)) : State :=
  { s with regs := l.foldl (fun v p => v.set! p.1 (BitVec.ofNat 32 p.2)) s.regs }

/-- A running processor with the program status image `p`. -/
def Tests.at_ (mode : Mode) (p : Nat) : State :=
  { State.reset with
    mode := mode
    priv := p.testBit 31
    cc := BitVec.ofNat 4 (p / 2 ^ 27)
    ext := p.testBit 26
    aexp := p.testBit 24
    pc := BitVec.ofNat 18 (p / 2)
    runState := .run
    trapsEnabled := true }

/-- One step of the instruction `code` leaves the status image `p2` (but for HIST), the registers `r2` and the bytes `m2`
changed, and nothing else of registers and memory. -/
def Tests.step1 (mode : Mode) (p : Nat) (code : List Nat) (r : List (Nat × Nat)) (m : List (Nat × List Nat))
    (p2 : Nat) (r2 : List (Nat × Nat)) (m2 : List (Nat × List Nat)) : Bool :=
  let s := Tests.put (Tests.regs (Tests.at_ mode p) r) ((p % 0x80000, code) :: m)
  match step s with
  | .next t =>
    decide (({ t with hist := false, mode := .psd } : State).psd1Image.toNat = p2) &&
      decide (t.regs = (Tests.regs s r2).regs) && decide (t.mem = (Tests.put s m2).mem)
  | _ => false

/-- What holds of a next state. -/
def Tests.next (o : Outcome) (p : State → Bool) : Bool :=
  match o with
  | .next t => p t
  | _ => false

/-- A privileged CPU in PSD mode, one in PSW mode, and an IPU. -/
def Tests.psd : State := Tests.at_ .psd 0x80001000
def Tests.psw : State := Tests.at_ .psw 0x80001000
def Tests.ipu : State := { Tests.psd with cfg := { Config.default with role := .ipu } }

/-- A Class F channel X'78' at level X'15', with its context block at X'A80' and the channel program at X'B00'. -/
def Tests.classF : State :=
  Tests.words { Tests.psd with cfg := { Config.default with channels := [⟨0x78, .classF, 0x15⟩] } } [(0x144, 0xA80), (0xA90, 0xB00)]

/-- One board of WCS. -/
def Tests.wcs : State := { Tests.psd with cfg := { Config.default with wcsBoards := .one } }

/-! The manual's examples (96_test_vectors_instruction_pages.md): the first of each instruction. -/

theorem test_lb : Tests.step1 .psw 0x1000 [0xAC, 0x88, 0x11, 0x1] [(1, 0x517CD092)] [(0x1101, [0xB6])]
    0x20001004 [(1, 0xB6)] [] = true := by decide
theorem test_lh : Tests.step1 .psw 0x10000408 [0xAE, 0x0, 0x5, 0x3] [(4, 0x5C00D34A)] [(0x502, [0x93, 0xC])]
    0x1000040C [(4, 0xFFFF930C)] [] = true := by decide
theorem test_ld : Tests.step1 .psw 0x400281C4 [0xAF, 0x2, 0x8B, 0x7A] [(6, 0x3F609C3), (7, 0x39BB510E)] [(0x28B78, [0xF0, 0x5B, 0x16, 0x9A]), (0x28B7C, [0x13, 0x7F, 0x8C, 0xA2])]
    0x100281C8 [(6, 0xF05B169A), (7, 0x137F8CA2)] [] = true := by decide
theorem test_lmb : Tests.step1 .psw 0x900 [0xB0, 0x88, 0x0, 0xA3] [(1, 0xAA3689B0), (4, 0xF0)] [(0xA3, [0x29])]
    0x20000904 [(1, 0x20)] [] = true := by decide
theorem test_lmh : Tests.step1 .psw 0x8000300 [0xB2, 0x80, 0x3, 0xA1] [(4, 0xFF00FF0), (5, 0xC427B319)] [(0x3A0, [0xA5, 0x8D])]
    0x20000304 [(5, 0xFF00580)] [] = true := by decide
theorem test_lmw : Tests.step1 .psw 0xF00 [0xB3, 0x80, 0xF, 0xFC] [(4, 0xFF00007C), (7, 0x12345678)] [(0xFFC, [0x89, 0x23, 0xF8, 0xE8])]
    0x10000F04 [(7, 0x89000068)] [] = true := by decide
theorem test_lmd : Tests.step1 .psw 0x200 [0xB3, 0x0, 0x2, 0xF2] [(4, 0x3F3F3F3F), (6, 0x12345678), (7, 0x9ABCDEF0)] [(0x2F0, [0xAE, 0x69, 0xD1, 0xC]), (0x2F4, [0x63, 0xB2, 0x8, 0xF0])]
    0x20000204 [(6, 0x2E29110C), (7, 0x23320830)] [] = true := by decide
theorem test_lnb : Tests.step1 .psw 0xD000 [0xB4, 0x88, 0xD1, 0x2] [(1, 0x0)] [(0xD102, [0x3A])]
    0x1000D004 [(1, 0xFFFFFFC6)] [] = true := by decide
theorem test_lnh : Tests.step1 .psw 0x40008000 [0xB6, 0x0, 0x84, 0x3] [(4, 0x12345678)] [(0x8402, [0x96, 0xC])]
    0x20008004 [(4, 0x69F4)] [] = true := by decide
theorem test_lnw : Tests.step1 .psw 0x8000500 [0xB6, 0x80, 0x6, 0xC8] [(5, 0x0)] [(0x6C8, [0x18, 0x5E, 0xD, 0x76])]
    0x10000504 [(5, 0xE7A1F28A)] [] = true := by decide
theorem test_lnd : Tests.step1 .psw 0x2344 [0xB5, 0x0, 0x24, 0xA2] [(2, 0x1234567), (3, 0x89ABCDEF)] [(0x24A0, [0x0, 0x0, 0x0, 0x0]), (0x24A4, [0x0, 0x0, 0x0, 0x1])]
    0x10002348 [(2, 0xFFFFFFFF), (3, 0xFFFFFFFF)] [] = true := by decide
theorem test_li : Tests.step1 .psw 0x630C [0xC8, 0x80, 0xFF, 0xFB] [(1, 0x12345678)] []
    0x10006310 [(1, 0xFFFFFFFB)] [] = true := by decide
theorem test_lea : Tests.step1 .psd 0x8001000 [0xD0, 0x80, 0x40, 0x0] [(1, 0x0)] [(0x4000, [0xAC, 0x88, 0x12, 0x3])]
    0x8001004 [(1, 0xC0004000)] [] = true := by decide
theorem test_lf : Tests.step1 .psw 0x8000300 [0xCE, 0x0, 0x2, 0x0] [] [(0x200, [0x0, 0x0, 0x0, 0x1]), (0x204, [0x0, 0x0, 0x0, 0x2]), (0x208, [0x0, 0x0, 0x0, 0x3]), (0x20C, [0x0, 0x0, 0x0, 0x4])]
    0x8000304 [(4, 0x1), (5, 0x2), (6, 0x3), (7, 0x4)] [] = true := by decide
theorem test_stb : Tests.step1 .psw 0x10003708 [0xD4, 0x88, 0x3A, 0x13] [(1, 0x1020304)] [(0x3A13, [0x78])]
    0x1000370C [] [(0x3A13, [0x4])] = true := by decide
theorem test_sth : Tests.step1 .psw 0x82A4 [0xD6, 0x0, 0x83, 0x13] [(4, 0x1020304)] [(0x8312, [0xA4, 0x9C])]
    0x82A8 [] [(0x8312, [0x3, 0x4])] = true := by decide
theorem test_stw : Tests.step1 .psw 0x10003904 [0xD7, 0x0, 0x3B, 0x3C] [(6, 0x485A276)] [(0x3B3C, [0x0, 0x0, 0x0, 0x0])]
    0x10003908 [] [(0x3B3C, [0x4, 0x85, 0xA2, 0x76])] = true := by decide
theorem test_std : Tests.step1 .psw 0x2000596C [0xD7, 0x0, 0x5C, 0x4A] [(6, 0xE24675C2), (7, 0x5923F8E8)] [(0x5C4C, [0x81, 0x4, 0xA2, 0x53])]
    0x20005970 [] [(0x5C48, [0xE2, 0x46, 0x75, 0xC2]), (0x5C4C, [0x59, 0x23, 0xF8, 0xE8])] = true := by decide
theorem test_stmb : Tests.step1 .psw 0x10001D80 [0xD8, 0x8, 0x1E, 0x91] [(0, 0xAC089417), (4, 0xFFFC)] [(0x1E91, [0x94])]
    0x10001D84 [] [(0x1E91, [0x14])] = true := by decide
theorem test_stmh : Tests.step1 .psw 0x20001000 [0xDA, 0x80, 0x11, 0xAD] [(4, 0x3FFC), (5, 0x716A58AB)] [(0x11AC, [0x0, 0x0])]
    0x20001004 [] [(0x11AC, [0x18, 0xA8])] = true := by decide
theorem test_stmw : Tests.step1 .psw 0x8004000 [0xDB, 0x0, 0x43, 0x7C] [(4, 0xFF00FF), (6, 0x718C3594)] [(0x437C, [0x12, 0x34, 0x56, 0x78])]
    0x8004004 [] [(0x437C, [0x0, 0x8C, 0x0, 0x94])] = true := by decide
theorem test_stmd : Tests.step1 .psw 0x1000A498 [0xDB, 0x0, 0xA6, 0x52] [(4, 0x7FFFC), (6, 0xAC88A819), (7, 0x988B1407)] []
    0x1000A49C [] [(0xA650, [0x0, 0x0, 0xA8, 0x18]), (0xA654, [0x0, 0x3, 0x14, 0x4])] = true := by decide
theorem test_stf : Tests.step1 .psw 0x40002000 [0xDE, 0x0, 0x21, 0x0] [(4, 0x11111111), (5, 0x22222222), (6, 0x33333333), (7, 0x44444444)] []
    0x40002004 [] [(0x2100, [0x11, 0x11, 0x11, 0x11]), (0x2104, [0x22, 0x22, 0x22, 0x22]), (0x2108, [0x33, 0x33, 0x33, 0x33]), (0x210C, [0x44, 0x44, 0x44, 0x44])] = true := by decide
theorem test_zmb : Tests.step1 .psw 0x10000308 [0xF8, 0x8, 0x4, 0x9F] [] [(0x49F, [0x6C])]
    0x1000030C [] [(0x49F, [0x0])] = true := by decide
theorem test_zmh : Tests.step1 .psw 0x802895C [0xF8, 0x2, 0xA4, 0x27] [] [(0x2A426, [0x9A, 0xE3])]
    0x8028960 [] [(0x2A426, [0x0, 0x0])] = true := by decide
theorem test_zmw : Tests.step1 .psw 0x5A14 [0xF8, 0x0, 0x5F, 0x90] [] [(0x5F90, [0x12, 0x34, 0x56, 0x78])]
    0x5A18 [] [(0x5F90, [0x0, 0x0, 0x0, 0x0])] = true := by decide
theorem test_zmd : Tests.step1 .psw 0x10015B3C [0xF8, 0x1, 0x5D, 0x6A] [] []
    0x10015B40 [] [(0x15D68, [0x0, 0x0, 0x0, 0x0]), (0x15D6C, [0x0, 0x0, 0x0, 0x0])] = true := by decide
theorem test_zr : Tests.step1 .psw 0x100309A6 [0xC, 0x90] [(1, 0x8495A6B7)] []
    0x80309A8 [(1, 0x0)] [] = true := by decide
theorem test_trr : Tests.step1 .psw 0x206 [0x2C, 0xA0] [(1, 0x0), (2, 0x803AB)] []
    0x20000208 [(1, 0x803AB), (2, 0x803AB)] [] = true := by decide
theorem test_trrm : Tests.step1 .psw 0x206 [0x2C, 0xA8] [(1, 0x0), (2, 0x803AB), (4, 0x7FFFD)] []
    0x20000208 [(1, 0x3A9)] [] = true := by decide
theorem test_trn : Tests.step1 .psw 0xAAE [0x2F, 0xE4] [(6, 0xFFF), (7, 0x12345678)] []
    0x10000AB0 [(7, 0xFFFFF001)] [] = true := by decide
theorem test_trnm : Tests.step1 .psw 0xAAE [0x2F, 0xEC] [(4, 0x7FFFFFFF), (6, 0xFFF), (7, 0x12345678)] []
    0x20000AB0 [(7, 0x7FFFF001)] [] = true := by decide
theorem test_trc : Tests.step1 .psw 0x800100A [0x2F, 0xE3] [(6, 0x55555555), (7, 0x0)] []
    0x1000100C [(7, 0xAAAAAAAA)] [] = true := by decide
theorem test_trcm : Tests.step1 .psw 0x800100A [0x2F, 0xEB] [(4, 0xFFFF00), (6, 0x55555555), (7, 0x0)] []
    0x2000100C [(7, 0xAAAA00)] [] = true := by decide
theorem test_xcr : Tests.step1 .psw 0x40002002 [0x2C, 0xA5] [(1, 0x0), (2, 0xAC8823C1)] []
    0x8002004 [(1, 0xAC8823C1), (2, 0x0)] [] = true := by decide
theorem test_xcrm : Tests.step1 .psw 0x40002002 [0x2C, 0xAD] [(1, 0x6B000000), (2, 0xAC8823C1), (4, 0xFFFFF)] []
    0x8002004 [(1, 0x823C1), (2, 0x0)] [] = true := by decide
theorem test_trsw : Tests.step1 .psw 0x6000069E [0x28, 0x0] [(0, 0xA0000B4C)] []
    0x20000B4C [] [] = true := by decide
theorem test_bu : Tests.step1 .psw 0x80001000 [0xEC, 0x10, 0x14, 0x14] [] [(0x1414, [0x70, 0x0, 0x15, 0xAC])]
    0xF00015AC [] [] = true := by decide
theorem test_bft : Tests.step1 .psw 0x70001000 [0xF0, 0x0, 0x20, 0x0] [(4, 0x2)] []
    0x70002000 [] [] = true := by decide
theorem test_bl : Tests.step1 .psw 0x1000894C [0xF8, 0x80, 0xA3, 0x78] [(0, 0x12345678)] []
    0x1000A378 [(0, 0x10008950)] [] = true := by decide
theorem test_bib : Tests.step1 .psw 0x2001B204 [0xF4, 0x1, 0xB1, 0xA8] [(0, 0xFFFFFFFF)] []
    0x2001B208 [(0, 0x0)] [] = true := by decide
theorem test_bih : Tests.step1 .psw 0x100039A0 [0xF5, 0x20, 0x39, 0x48] [(2, 0xFFFFD72A)] []
    0x10003948 [(2, 0xFFFFD72C)] [] = true := by decide
theorem test_biw : Tests.step1 .psw 0x60004A38 [0xF7, 0x40, 0x4B, 0x2C] [(6, 0xFFFFDC18)] []
    0x60004B2C [(6, 0xFFFFDC1C)] [] = true := by decide
theorem test_bid : Tests.step1 .psw 0x800930C [0xF5, 0xE0, 0x91, 0xA6] [(3, 0xFFFFFFF8)] []
    0x8009310 [(3, 0x0)] [] = true := by decide
theorem test_camb : Tests.step1 .psw 0x8001000 [0x90, 0x88, 0x10, 0xB5] [(1, 0xB6)] [(0x10B5, [0xC7])]
    0x10001004 [] [] = true := by decide
theorem test_camh : Tests.step1 .psw 0x800379C [0x92, 0x0, 0x39, 0x77] [(4, 0x8540)] [(0x3976, [0x86, 0x40])]
    0x200037A0 [] [] = true := by decide
theorem test_camw : Tests.step1 .psw 0x40005B20 [0x93, 0x0, 0x5C, 0x78] [(6, 0x9E03B651)] [(0x5C78, [0xA1, 0x84, 0xF2, 0x7])]
    0x10005B24 [] [] = true := by decide
theorem test_camd : Tests.step1 .psw 0x20027C14 [0x92, 0x2, 0x7F, 0x52] [(4, 0x7AE0156D), (5, 0x47B39208)] [(0x27F50, [0x7A, 0xE0, 0x15, 0x6D]), (0x27F54, [0x47, 0xB3, 0x92, 0x8])]
    0x8027C18 [] [] = true := by decide
theorem test_car : Tests.step1 .psw 0x800B3C2 [0x10, 0x10] [(0, 0x58DF620A), (1, 0x6A92B730)] []
    0x1000B3C4 [] [] = true := by decide
theorem test_ci : Tests.step1 .psw 0x4000A794 [0xC8, 0x85, 0x71, 0xA2] [(1, 0x5719)] []
    0x1000A798 [] [] = true := by decide
theorem test_cmmb : Tests.step1 .psw 0x10000800 [0x94, 0x8, 0x9, 0x17] [(0, 0xA1), (4, 0xF0)] [(0x917, [0xA9])]
    0x8000804 [] [] = true := by decide
theorem test_cmmh : Tests.step1 .psw 0x100061B8 [0x95, 0x0, 0x62, 0x93] [(2, 0x9A043B6), (4, 0x4284)] [(0x6292, [0x46, 0xFC])]
    0x80061BC [] [] = true := by decide
theorem test_cmmw : Tests.step1 .psw 0x8013A74 [0x97, 0x1, 0x3C, 0x94] [(4, 0xFFFF00), (6, 0x132A1C04)] [(0x13C94, [0x47, 0x2A, 0x3C, 0x4])]
    0x13A78 [] [] = true := by decide
theorem test_cmmd : Tests.step1 .psw 0x10003000 [0x97, 0x0, 0x31, 0xBA] [(4, 0xFFFFF), (6, 0xFFF3791B), (7, 0x890A45D6)] [(0x31B8, [0x0, 0x3, 0x79, 0x1B]), (0x31BC, [0x89, 0xA, 0x45, 0xC2])]
    0x3004 [] [] = true := by decide
theorem test_cmr : Tests.step1 .psw 0x100050D2 [0x14, 0xA0] [(1, 0x583C94A2), (2, 0xC68C5F6), (4, 0xAAAAAAAA)] []
    0x80050D4 [] [] = true := by decide
theorem test_anmb : Tests.step1 .psw 0x200 [0x84, 0x88, 0x3, 0x73] [(1, 0x36AC718F)] [(0x373, [0xC7])]
    0x20000204 [(1, 0x36AC7187)] [] = true := by decide
theorem test_anmh : Tests.step1 .psw 0x40001000 [0x87, 0x0, 0x12, 0xA3] [(6, 0x4F638301)] [(0x12A2, [0x70, 0xF6])]
    0x8001004 [(6, 0x4F630000)] [] = true := by decide
theorem test_anmw : Tests.step1 .psw 0x8000F1C [0x87, 0x80, 0xF, 0xD0] [(7, 0xF0F0F0F0)] [(0xFD0, [0x9E, 0xD1, 0x38, 0x54])]
    0x10000F20 [(7, 0x90D03050)] [] = true := by decide
theorem test_anmd : Tests.step1 .psw 0x674 [0x86, 0x0, 0x8, 0x1A] [(4, 0x9045C64A), (5, 0x32B08F00)] [(0x818, [0x68, 0x4A, 0x71, 0x1C]), (0x81C, [0x81, 0x4, 0xA2, 0xBC])]
    0x20000678 [(4, 0x404008), (5, 0x8200)] [] = true := by decide
theorem test_anr : Tests.step1 .psw 0x40003812 [0x4, 0xF0] [(1, 0xAC881101), (7, 0xFFFFF)] []
    0x20003814 [(1, 0x81101)] [] = true := by decide
theorem test_ormb : Tests.step1 .psw 0x600 [0x88, 0x88, 0x8, 0xA3] [(1, 0x40404040)] [(0x8A3, [0x3C])]
    0x20000604 [(1, 0x4040407C)] [] = true := by decide
theorem test_ormh : Tests.step1 .psw 0x18AC [0x8B, 0x0, 0x19, 0x45] [(6, 0xBD71A4C6)] [(0x1944, [0x45, 0xF3])]
    0x100018B0 [(6, 0xBD71E5F7)] [] = true := by decide
theorem test_ormw : Tests.step1 .psw 0x40005000 [0x89, 0x80, 0x52, 0xC] [(3, 0x88888888)] [(0x520C, [0xE, 0xDC, 0x46, 0x57])]
    0x10005004 [(3, 0x8EDCCEDF)] [] = true := by decide
theorem test_ormd : Tests.step1 .psw 0x10000B68 [0x8B, 0x0, 0xC, 0x32] [(6, 0x2A0031), (7, 0x1D0039)] [(0xC30, [0x18, 0x0, 0x4C, 0x0]), (0xC34, [0x9, 0x0, 0x24, 0x0])]
    0x20000B6C [(6, 0x182A4C31), (7, 0x91D2439)] [] = true := by decide
theorem test_orr : Tests.step1 .psw 0x40000F8A [0x8, 0xA0] [(1, 0x1D63F), (2, 0x88880000)] []
    0x10000F8C [(1, 0x8889D63F)] [] = true := by decide
theorem test_orrm : Tests.step1 .psw 0x8003956 [0xB, 0x58] [(4, 0xEEEEEEEE), (5, 0x37735814), (6, 0x2561CA95)] []
    0x20003958 [(6, 0x2662CA84)] [] = true := by decide
theorem test_eomb : Tests.step1 .psw 0x12F8 [0x8C, 0x8, 0x13, 0xA1] [(0, 0xD396F458)] [(0x13A1, [0xA9])]
    0x100012FC [(0, 0xD396F4F1)] [] = true := by decide
theorem test_eomh : Tests.step1 .psw 0x40000958 [0x8E, 0x80, 0xA, 0x41] [(5, 0x96969696)] [(0xA40, [0x5C, 0xAB])]
    0x1000095C [(5, 0x9696CA3D)] [] = true := by decide
theorem test_eomw : Tests.step1 .psw 0x185BC [0x8F, 0x81, 0x86, 0x94] [(7, 0x13579BDF)] [(0x18694, [0x22, 0x22, 0x22, 0x22])]
    0x200185C0 [(7, 0x3175B9FD)] [] = true := by decide
theorem test_eomd : Tests.step1 .psw 0x448 [0x8F, 0x0, 0x5, 0x3A] [(6, 0xFFFF00), (7, 0xFFF000)] [(0x538, [0x48, 0x21, 0x44, 0xC0]), (0x53C, [0x28, 0x81, 0x43, 0x3A])]
    0x2000044C [(6, 0x48DEBBC0), (7, 0x287EB33A)] [] = true := by decide
theorem test_eor : Tests.step1 .psw 0x139E [0xF, 0xE0] [(6, 0x33333333), (7, 0x55555555)] []
    0x200013A0 [(7, 0x66666666)] [] = true := by decide
theorem test_eorm : Tests.step1 .psw 0x25A32 [0xF, 0xE8] [(4, 0xFEDF00), (6, 0x9725A2C8), (7, 0x6C248237)] []
    0x8025A34 [(7, 0x0)] [] = true := by decide
theorem test_nor : Tests.step1 .psw 0x20000D32 [0x63, 0x10] [(1, 0x12345678), (6, 0x2E915)] []
    0x20000D34 [(1, 0x3D), (6, 0x2E915000)] [] = true := by decide
theorem test_nord : Tests.step1 .psw 0x1000046E [0x67, 0x10] [(1, 0x9ABCDEF0), (6, 0xFFFFFFFF), (7, 0xFF3AD915)] []
    0x10000470 [(1, 0x37), (6, 0xF3AD9150), (7, 0x0)] [] = true := by decide
theorem test_scz : Tests.step1 .psw 0x2000399E [0x6A, 0x20] [(2, 0x12345678), (4, 0x300611)] []
    0x39A0 [(2, 0xA), (4, 0x80308800)] [] = true := by decide
theorem test_sla : Tests.step1 .psw 0x10000106 [0x6F, 0x4C] [(6, 0x13AD)] []
    0x108 [(6, 0x13AD000)] [] = true := by decide
theorem test_slad : Tests.step1 .psw 0x80002DF6 [0x7A, 0x58] [(4, 0xFFFFFFA3), (5, 0x9A178802)] []
    0x80002DF8 [(4, 0xA39A1788), (5, 0x2000000)] [] = true := by decide
theorem test_slld : Tests.step1 .psw 0x100001FE [0x7F, 0x58] [(6, 0x1234567), (7, 0x89ABCDEF)] []
    0x10000200 [(6, 0x6789ABCD), (7, 0xEF000000)] [] = true := by decide
theorem test_sra : Tests.step1 .psw 0x10000372 [0x6E, 0xA] [(4, 0xB69825F1)] []
    0x10000374 [(4, 0xFFEDA609)] [] = true := by decide
theorem test_srl : Tests.step1 .psw 0x10000372 [0x72, 0xA] [(4, 0xB69825F1)] []
    0x10000374 [(4, 0x2DA609)] [] = true := by decide
theorem test_src : Tests.step1 .psw 0x20000372 [0x76, 0xC] [(4, 0x1234567)] []
    0x20000374 [(4, 0x56701234)] [] = true := by decide
theorem test_srad : Tests.step1 .psw 0x20002B46 [0x7B, 0x18] [(6, 0x8E2A379B), (7, 0x58C1964D)] []
    0x20002B48 [(6, 0xFFFFFF8E), (7, 0x2A379B58)] [] = true := by decide
theorem test_sbm : Tests.step1 .psw 0x20001000 [0x98, 0x88, 0x14, 0x3] [] [(0x1403, [0x1A])]
    0x10001004 [] [(0x1403, [0x5A])] = true := by decide
theorem test_sbr : Tests.step1 .psw 0x10001002 [0x1B, 0x82] [(0, 0x374B891)] []
    0x8001004 [(0, 0x374B991)] [] = true := by decide
theorem test_zbm : Tests.step1 .psw 0x1001F684 [0x9E, 0x8A, 0x1, 0x22] [] [(0x20122, [0x34])]
    0x4801F688 [] [(0x20122, [0x30])] = true := by decide
theorem test_zbr : Tests.step1 .psw 0x10000C56 [0x1C, 0x51] [(5, 0x76A43B19)] []
    0x48000C58 [(5, 0x76243B19)] [] = true := by decide
theorem test_abm : Tests.step1 .psw 0x3000 [0xA2, 0x8, 0x31, 0x92] [] [(0x3190, [0x51, 0xA3, 0xF9, 0x26])]
    0x20003004 [] [(0x3190, [0x51, 0xA4, 0x1, 0x26])] = true := by decide
theorem test_abr : Tests.step1 .psw 0x800184E [0x21, 0x61] [(6, 0x3BE9AC48)] []
    0x20001850 [(6, 0x3C09AC48)] [] = true := by decide
theorem test_tbm : Tests.step1 .psw 0x10005A38 [0xA6, 0x8, 0x5B, 0x21] [] [(0x5B21, [0x29])]
    0x48005A3C [] [(0x5B21, [0x29])] = true := by decide
theorem test_tbr : Tests.step1 .psw 0x18001982 [0x25, 0xD3] [(5, 0x81A2C64D)] []
    0x8001984 [(5, 0x81A2C64D)] [] = true := by decide
theorem test_admb : Tests.step1 .psw 0x10000800 [0xBA, 0x8, 0x9, 0x15] [(4, 0x99)] [(0x915, [0x8A])]
    0x20000804 [(4, 0x123)] [] = true := by decide
theorem test_admh : Tests.step1 .psw 0x20040D68 [0xBB, 0x84, 0x10, 0x97] [(7, 0x6C4)] [(0x41096, [0x8C, 0x42])]
    0x10040D6C [(7, 0xFFFF9306)] [] = true := by decide
theorem test_admw : Tests.step1 .psw 0x40000D50 [0xBB, 0x0, 0x11, 0xAC] [(6, 0x37C1F3)] [(0x11AC, [0x0, 0x4F, 0xC2, 0x76])]
    0x20000D54 [(6, 0x878469)] [] = true := by decide
theorem test_admd : Tests.step1 .psw 0x8008E3C [0xBA, 0x0, 0x92, 0x52] [(4, 0x298A1), (5, 0x815BC63E)] [(0x9250, [0x3B, 0x69, 0xA0, 0x7E]), (0x9254, [0x7F, 0x35, 0x79, 0xA4])]
    0x20008E40 [(4, 0x3B6C3920), (5, 0x913FE2)] [] = true := by decide
theorem test_adr : Tests.step1 .psw 0x8003FA2 [0x3B, 0x70] [(6, 0xFF03C67D), (7, 0x45C6E3F)] []
    0x20003FA4 [(6, 0x36034BC)] [] = true := by decide
theorem test_adrm : Tests.step1 .psw 0x40016A9A [0x3B, 0x78] [(4, 0x7FFFFC), (6, 0x4FC276), (7, 0x37C1F3)] []
    0x20016A9C [(6, 0x78468)] [] = true := by decide
theorem test_armw : Tests.step1 .psw 0x8003000 [0xEB, 0x80, 0x31, 0x0] [(7, 0x245C6E3F)] [(0x3100, [0xFF, 0x3, 0xC6, 0x7D])]
    0x20003004 [] [(0x3100, [0x23, 0x60, 0x34, 0xBC])] = true := by decide
theorem test_armd : Tests.step1 .psw 0x4000819C [0xEB, 0x0, 0x83, 0xAA] [(6, 0x1A298A1), (7, 0xF15BC63E)] [(0x83A8, [0x3B, 0x69, 0xA0, 0x7E]), (0x83AC, [0x7F, 0x35, 0x79, 0xA4])]
    0x200081A0 [] [(0x83A8, [0x3D, 0xC, 0x39, 0x20]), (0x83AC, [0x70, 0x91, 0x3F, 0xE2])] = true := by decide
theorem test_adi : Tests.step1 .psw 0x20000D88 [0xC8, 0x1, 0x86, 0xB2] [(0, 0x794E)] []
    0x8000D8C [(0, 0x0)] [] = true := by decide
theorem test_sumb : Tests.step1 .psw 0x40001000 [0xBC, 0x88, 0x12, 0x1] [(1, 0x194A7F2)] [(0x1201, [0x9A])]
    0x20001004 [(1, 0x194A758)] [] = true := by decide
theorem test_sumh : Tests.step1 .psw 0x10001604 [0xBF, 0x0, 0x18, 0x77] [(6, 0x24CB3)] [(0x1876, [0x34, 0xC6])]
    0x20001608 [(6, 0x217ED)] [] = true := by decide
theorem test_sumw : Tests.step1 .psw 0x6C208 [0xBC, 0x86, 0xF9, 0x14] [(1, 0xA6264D)] [(0x6F914, [0x0, 0x7, 0x4B, 0xC3])]
    0x2006C20C [(1, 0x9EDA8A)] [] = true := by decide
theorem test_sumd : Tests.step1 .psw 0x10003000 [0xBF, 0x0, 0x31, 0x2] [(6, 0x5AD983B7), (7, 0xC833D509)] [(0x3100, [0x15, 0x3B, 0x4, 0x92]), (0x3104, [0x5B, 0xE8, 0x7A, 0x16])]
    0x20003004 [(6, 0x459E7F25), (7, 0x6C4B5AF3)] [] = true := by decide
theorem test_sur : Tests.step1 .psw 0x100106AE [0x3C, 0xA0] [(1, 0x12345678), (2, 0x12345678)] []
    0x80106B0 [(1, 0x0)] [] = true := by decide
theorem test_surm : Tests.step1 .psw 0x10000496 [0x3F, 0x58] [(4, 0xFFFF00), (5, 0x74BC3), (6, 0xA6264D)] []
    0x20000498 [(6, 0x9EDA00)] [] = true := by decide
theorem test_sui : Tests.step1 .psw 0x100019B8 [0xCB, 0x82, 0x83, 0x9A] [(7, 0xFFFF839A)] []
    0x80019BC [(7, 0x0)] [] = true := by decide
theorem test_mpmb : Tests.step1 .psw 0x2BA28 [0xC0, 0xA, 0xC3, 0xD9] [(0, 0x12345678), (1, 0x6F90C859)] [(0x2C3D9, [0x40])]
    0x2002BA2C [(0, 0x1B), (1, 0xE4321640)] [] = true := by decide
theorem test_mpmh : Tests.step1 .psw 0x80096A4 [0xC1, 0x0, 0x9B, 0x57] [(2, 0x12345678), (3, 0x3)] [(0x9B56, [0xFF, 0xFD])]
    0x100096A8 [(2, 0xFFFFFFFF), (3, 0xFFFFFFF7)] [] = true := by decide
theorem test_mpmw : Tests.step1 .psw 0x10004AC8 [0xC3, 0x0, 0x4B, 0x1C] [(6, 0x0), (7, 0x80000000)] [(0x4B1C, [0x80, 0x0, 0x0, 0x0])]
    0x20004ACC [(6, 0x40000000), (7, 0x0)] [] = true := by decide
theorem test_mpr : Tests.step1 .psw 0x1000098E [0x40, 0x10] [(0, 0x0), (1, 0xF)] []
    0x20000990 [(0, 0x0), (1, 0xE1)] [] = true := by decide
theorem test_mpi : Tests.step1 .psw 0x20000634 [0xCB, 0x3, 0x1, 0x0] [(6, 0x12345678), (7, 0xF37A9B15)] []
    0x10000638 [(6, 0xFFFFFFF3), (7, 0x7A9B1500)] [] = true := by decide
theorem test_dvmb : Tests.step1 .psw 0x10003000 [0xC4, 0x8, 0x30, 0xBF] [(0, 0x0), (1, 0x139)] [(0x30BF, [0x4])]
    0x20003004 [(0, 0x1), (1, 0x4E)] [] = true := by decide
theorem test_dvmh : Tests.step1 .psw 0x8005A94 [0xC7, 0x0, 0x5D, 0x6B] [(6, 0x0), (7, 0x3D)] [(0x5D6A, [0xFF, 0xF8])]
    0x10005A98 [(6, 0x5), (7, 0xFFFFFFF9)] [] = true := by decide
theorem test_dvmw : Tests.step1 .psw 0x400078C0 [0xC6, 0x0, 0x7B, 0x5C] [(4, 0x0), (5, 0x39A20CF)] [(0x7B5C, [0xFC, 0x0, 0x0, 0x0])]
    0x80078C4 [(4, 0x39A20CF), (5, 0x0)] [] = true := by decide
theorem test_dvr : Tests.step1 .psw 0x10004136 [0x47, 0x20] [(2, 0xA), (6, 0x0), (7, 0xFF)] []
    0x20004138 [(2, 0xA), (6, 0x5), (7, 0x19)] [] = true := by decide
theorem test_dvi : Tests.step1 .psw 0x8000 [0xC9, 0x4, 0xFF, 0xFD] [(2, 0x0), (3, 0x1B7)] []
    0x10008004 [(2, 0x1), (3, 0xFFFFFF6E)] [] = true := by decide
theorem test_rnd : Tests.step1 .psw 0x40000FFE [0x3, 0x5] [(6, 0x783A05B2), (7, 0x92CD061F)] []
    0x20001000 [(6, 0x783A05B3)] [] = true := by decide
theorem test_bct : Tests.step1 .psw 0x50001000 [0xEC, 0x80, 0x14, 0x14] [] []
    0x50001414 [] [] = true := by decide
theorem test_bcf : Tests.step1 .psw 0x10002094 [0xF1, 0x0, 0x21, 0x4C] [] []
    0x1000214C [] [] = true := by decide
theorem test_slc : Tests.step1 .psw 0x1FA [0x77, 0xD0] [(7, 0x12345678)] []
    0x1FC [(7, 0x56781234)] [] = true := by decide
theorem test_es : Tests.step1 .psw 0x82E [0x0, 0x84] [(2, 0x8000C361)] []
    0x10000830 [(1, 0xFFFFFFFF)] [] = true := by decide

/-! By hand from the rules, or from 95_test_vectors.md. -/

/-- ARMB and ARMH as in 96_test_vectors_instruction_pages.md, but for the condition code, whose CC1 to CC3 are undefined (R428, R429). -/
theorem test_armb : Tests.next (exec (.armb 6 ⟨0, false, 0x1A97⟩) (Tests.put (Tests.regs Tests.psd [(6, 0x4A)]) [(0x1A97, [0x39])]))
    (fun t => decide (Memory.read t.mem 0x1A97 = 0x83 ∧ t.reg 6 = 0x4A)) = true := by decide
theorem test_armh : Tests.next (exec (.armh 5 ⟨0, false, 0x1048C⟩) (Tests.put (Tests.regs Tests.psd [(5, 0xFFFF8C42)]) [(0x20918, [0x06, 0xC4])]))
    (fun t => decide (Memory.read16 t.mem 0x20918 = 0x9306 ∧ t.reg 5 = 0xFFFF8C42)) = true := by decide
theorem test_lw : Tests.next (exec (.lw 1 ⟨0, false, 0x80⟩) (Tests.words Tests.psd [(0x200, 0xFFFFFFFF)]))
    (fun t => decide (t.reg 1 = 0xFFFFFFFF ∧ t.cc = 2)) = true := by decide
theorem test_la : Tests.next (exec (.la 2 ⟨0, false, 0x81234⟩) Tests.psd) (fun t => decide (t.reg 2 = 0x81234 ∧ t.cc = 0)) = true := by decide
theorem test_lear : Tests.next (exec (.lear 2 ⟨0, false, 0x01000⟩)
      { Tests.psd with mapped := true, map := (Tests.psd.map.set 0 0x8005) })
    (fun t => decide (t.reg 2 = 0x29000)) = true := by decide
theorem test_tscr : Tests.next (exec (.tscr 2 3) { Tests.regs Tests.psd [(2, 0x400000)] with spad := Tests.psd.spad.set 0x40 0x12345678 })
    (fun t => decide (t.reg 3 = 0x12345678)) = true := by decide
theorem test_trsc : Tests.next (exec (.trsc 2 3) (Tests.regs Tests.psd [(2, 0x12345678), (3, 0x400000)]))
    (fun t => decide (t.spad[0x40] = 0x12345678 ∧ t.spad[0x41] = 0)) = true := by decide
theorem test_trp : Tests.next (exec (.trp 1 7) (Tests.regs Tests.psd [(7, 0x1234FFFE)]))
    (fun t => decide (t.prot[1] = 0xFFFE ∧ t.prot[0] = 0)) = true := by decide
theorem test_tpr : Tests.next (exec (.tpr 1 7) { Tests.psd with prot := Tests.psd.prot.set 1 0xFFFE })
    (fun t => decide (t.reg 7 = 0xFFFE)) = true := by decide
theorem test_sea : Tests.next (exec .sea Tests.psd) (fun t => t.ext) = true := by decide
theorem test_cea : Tests.next (exec .cea { Tests.psd with ext := true }) (fun t => !t.ext) = true := by decide
/-- The sample map of 95_test_vectors.md: one segment of two pages. -/
theorem test_lmap : Tests.next (exec (.lmap 1) (Tests.words { Tests.regs Tests.psd [(1, 0x4000)] with spad := Tests.psd.spad.set 0xF3 0x2000 }
      [(0x4004, 0x40080008), (0x2008, 0x01002100), (0x2100, 0x02002200), (0x2200, 0x8000C003)]))
    (fun t => decide (t.map[0] = 0x8000 ∧ t.map[1] = 0xC003 ∧ t.map[2] = 0 ∧ t.mapped = false)) = true := by decide
theorem test_tmapr : Tests.next (exec (.tmapr 1 2)
      { Tests.regs Tests.psd [(1, 4)] with map := (Tests.psd.map.set 4 0x8012).set 5 0xC013 })
    (fun t => decide (t.reg 2 = 0x8012C013)) = true := by decide
theorem test_wwcs : Tests.next (exec (.wwcs 1 2) (Tests.words (Tests.regs Tests.wcs [(1, 0x2000), (2, 16)]) [(0x2000, 0x11111111), (0x2004, 0x22222222)]))
    (fun t => decide (Wcs.read t.wcs 16 = 0x1111111122222222 ∧ t.cc = 0)) = true := by decide
theorem test_rwcs : Tests.next (exec (.rwcs 2 1) { Tests.regs Tests.wcs [(1, 0x2000), (2, 16)] with wcs := [(16, 0x1111111122222222)] })
    (fun t => decide (Memory.read32 t.mem 0x2000 = 0x11111111 ∧ Memory.read32 t.mem 0x2004 = 0x22222222)) = true := by decide
theorem test_sll : Tests.next (exec (.sll 1 4) (Tests.regs Tests.psd [(1, 0x87654321)])) (fun t => decide (t.reg 1 = 0x76543210)) = true := by decide
theorem test_srld : Tests.next (exec (.srld 2 4) (Tests.regs Tests.psd [(2, 0x87654321), (3, 0x12345678)]))
    (fun t => decide (t.reg 2 = 0x08765432 ∧ t.reg 3 = 0x11234567)) = true := by decide
/-- 1 + 1 = 2, 1 - 1/2 = 1/2, 2 * 1/2 = 1, 1 / 2 = 1/2 (R481). -/
theorem test_adfw : Tests.next (exec (.adfw 1 ⟨0, false, 0x200⟩) (Tests.words (Tests.regs Tests.psd [(1, 0x41100000)]) [(0x200, 0x41100000)]))
    (fun t => decide (t.reg 1 = 0x41200000 ∧ t.cc = 4)) = true := by decide
theorem test_adfd : Tests.next (exec (.adfd 2 ⟨0, false, 0x80⟩) (Tests.words (Tests.regs Tests.psd [(2, 0x41100000)]) [(0x200, 0x41100000)]))
    (fun t => decide (t.reg 2 = 0x41200000 ∧ t.reg 3 = 0 ∧ t.cc = 4)) = true := by decide
theorem test_sufw : Tests.next (exec (.sufw 1 ⟨0, false, 0x200⟩) (Tests.words (Tests.regs Tests.psd [(1, 0x41100000)]) [(0x200, 0x40800000)]))
    (fun t => decide (t.reg 1 = 0x40800000 ∧ t.cc = 4)) = true := by decide
theorem test_sufd : Tests.next (exec (.sufd 2 ⟨0, false, 0x80⟩) (Tests.words (Tests.regs Tests.psd [(2, 0x41100000)]) [(0x200, 0x41100000)]))
    (fun t => decide (t.reg 2 = 0 ∧ t.reg 3 = 0 ∧ t.cc = 1)) = true := by decide
theorem test_mpfw : Tests.next (exec (.mpfw 1 ⟨0, false, 0x200⟩) (Tests.words (Tests.regs Tests.psd [(1, 0x41200000)]) [(0x200, 0x40800000)]))
    (fun t => decide (t.reg 1 = 0x41100000 ∧ t.cc = 4)) = true := by decide
theorem test_mpfd : Tests.next (exec (.mpfd 2 ⟨0, false, 0x80⟩) (Tests.words (Tests.regs Tests.psd [(2, 0x41200000)]) [(0x200, 0x40800000)]))
    (fun t => decide (t.reg 2 = 0x41100000 ∧ t.cc = 4)) = true := by decide
theorem test_dvfw : Tests.next (exec (.dvfw 1 ⟨0, false, 0x200⟩) (Tests.words (Tests.regs Tests.psd [(1, 0x41100000)]) [(0x200, 0x41200000)]))
    (fun t => decide (t.reg 1 = 0x40800000 ∧ t.cc = 4)) = true := by decide
theorem test_dvfd : Tests.next (exec (.dvfd 2 ⟨0, false, 0x80⟩) (Tests.words (Tests.regs Tests.psd [(2, 0x41100000)]) [(0x200, 0x41200000)]))
    (fun t => decide (t.reg 2 = 0x40800000 ∧ t.cc = 4)) = true := by decide
theorem test_bri : Tests.next (exec (.bri ⟨0, true, 0x400⟩) (Tests.words { Tests.psw with active := 1#128 <<< 0x27 } [(0x400, 0x2000300A)]))
    (fun t => decide (t.active = 0 ∧ t.priv = false ∧ t.cc = 4 ∧ t.pc.toNat * 2 = 0x300A)) = true := by decide
theorem test_lpsd : Tests.next (exec (.lpsd ⟨0, false, 0x3000⟩) (Tests.words Tests.psd [(0x3000, 0x28001000), (0x3004, 0x40044004)]))
    (fun t => decide (t.pc.toNat * 2 = 0x1000 ∧ t.priv = false ∧ t.cc = 5 ∧ t.mapped = true ∧ t.blocked = true)) = true := by decide
theorem test_lpsdcm : Tests.next (exec (.lpsdcm ⟨0, false, 0x3000⟩) (Tests.words { Tests.psd with spad := Tests.psd.spad.set 0xF3 0x2000 }
      [(0x3000, 0x1000), (0x3004, 0x40040004), (0x2004, 0x01002100), (0x2100, 0x02002200), (0x2200, 0x8000C003)]))
    (fun t => decide (t.map[0] = 0x8000 ∧ t.map[1] = 0xC003 ∧ t.map[2] = 0 ∧ t.mapped = true ∧ t.priv = false)) = true := by decide
theorem test_lcs : Tests.next (exec (.lcs 7) { Tests.psd with csw := 0x8200 }) (fun t => decide (t.reg 7 = 0x82000000 ∧ t.cc = 2)) = true := by decide
theorem test_exr : Tests.next (exec (.exr 1) (Tests.regs Tests.psd [(1, 0xC9800004)])) (fun t => decide (t.reg 3 = 4 ∧ t.execDepth = false)) = true := by decide
theorem test_exrr : Tests.next (exec (.exrr 1) (Tests.regs Tests.psd [(1, 0x00022C90), (2, 7)])) (fun t => decide (t.reg 1 = 0x22C90 ∧ t.cc = 4)) = true := by decide
theorem test_exm : Tests.next (exec (.exm ⟨0, false, 0x202⟩) (Tests.words (Tests.regs Tests.psd [(1, 7)]) [(0x200, 0x00022C10)]))
    (fun t => decide (t.reg 0 = 7 ∧ t.cc = 4)) = true := by decide
theorem test_halt : Tests.next (exec .halt Tests.psd) (fun t => decide (t.runState = .halt)) = true := by decide
theorem test_wait : Tests.next (exec .wait Tests.psd) (fun t => decide (t.runState = .wait)) = true := by decide
theorem test_wait_2 : Tests.next (exec .wait { Tests.psd with blocked := true }) (fun t => t.pendingTimeout && decide (t.runState = .run)) = true := by decide
theorem test_nop : Tests.next (step (Tests.put Tests.psd [(0x1000, [0, 2])])) (fun t => decide (t.pc.toNat * 2 = 0x1002)) = true := by decide
theorem test_sipu : Tests.next (exec .sipu { Tests.psd with cfg := { Config.default with ipuPresent := true } }) (fun t => t.ipuStartPending) = true := by decide
theorem test_calm : Tests.next (exec (.calm 0x55) Tests.psd) (fun t => t.requesting.getLsbD 0x27) = true := by decide
theorem test_svc : Tests.next (exec (.svc 1 0x55) (Tests.words { Tests.psd with pc := 0x802 } [(0x180, 0x640), (0x644, 0x660), (0x668, 0x80000700)]))
    (fun t => decide (Memory.read32 t.mem 0x660 = 0x80001004 ∧ Memory.read32 t.mem 0x670 = 0x55 ∧ t.pc.toNat * 2 = 0x700)) = true := by decide
theorem test_setcpu : Tests.next (exec (.setcpu 1) (Tests.regs Tests.psd [(1, 0x31000)]))
    (fun t => t.bmtoEnabled && t.trapsEnabled && decide (t.mode = .psd)) = true := by decide
theorem test_setcpu_2 : Tests.next (exec (.setcpu 1) Tests.psd) (fun t => !t.bmtoEnabled && !t.trapsEnabled && decide (t.mode = .psw)) = true := by decide
theorem test_rdsts : Tests.next (exec (.rdsts 3) { Tests.psd with aexp := true, spad := Tests.psd.spad.set 0x91 0x00100081 })
    (fun t => decide (t.reg 3 = 0x00100081 ∧ t.cc = 4 ∧ t.status = 0x81)) = true := by decide
theorem test_eae : Tests.next (exec .eae Tests.psd) (fun t => t.aexp) = true := by decide
theorem test_dae : Tests.next (exec .dae { Tests.psd with aexp := true }) (fun t => !t.aexp) = true := by decide
theorem test_ei : Tests.next (exec (.ei 0x13) Tests.psd) (fun t => decide (t.enabled = 1#128 <<< 0x13)) = true := by decide
theorem test_di : Tests.next (exec (.di 0x13) { Tests.psd with enabled := 1#128 <<< 0x13, requesting := 1#128 <<< 0x13, active := 1#128 <<< 0x13 })
    (fun t => decide (t.enabled = 0 ∧ t.requesting = 0 ∧ t.active = 1#128 <<< 0x13)) = true := by decide
theorem test_ri : Tests.next (exec (.ri 0x13) Tests.psd) (fun t => decide (t.requesting = 1#128 <<< 0x13)) = true := by decide
theorem test_ai : Tests.next (exec (.ai 0x13) Tests.psd) (fun t => decide (t.active = 1#128 <<< 0x13)) = true := by decide
theorem test_dai : Tests.next (exec (.dai 0x13) { Tests.psd with active := 1#128 <<< 0x13 }) (fun t => t.nonint && decide (t.active = 0)) = true := by decide
theorem test_bei : Tests.next (exec .bei Tests.psd) (fun t => t.blocked && decide (t.blockCount = 0)) = true := by decide
theorem test_uei : Tests.next (exec .uei { Tests.psd with blocked := true }) (fun t => !t.blocked) = true := by decide
/-- A channel that is not there answers 0010 (R573, R590). -/
theorem test_class_f_absent : ∀ i ∈ [Instr.eci 0 0x100, .dci 0 0x100, .aci 0 0x100, .daci 0 0x100, .sio 0 0x100, .tio 0 0x100,
      .stpio 0 0x100, .rschnl 0 0x100, .hio 0 0x100, .grio 0 0x100, .rsctl 0 0x100, .ecwcs 0 0x100, .wcwcs 0 0x100],
    Tests.next (exec i Tests.psd) (fun t => decide (t.cc = 2)) = true := by decide
/-- WCWCS without ECWCS before it is a System Check (R587, R588). -/
theorem test_wcwcs : exec (.wcwcs 0 0x7800) Tests.classF = raise (.systemCheck false) Tests.classF := rfl
theorem test_cd : Tests.next (exec (.cd 0x7A 0x8000) Tests.psd) (fun t => decide (t.channelOut = [.commandDevice 0x7A 0x8000])) = true := by decide
theorem test_td : Tests.next (exec (.td 0x01 0x8000) Tests.psd) (fun t => decide (t.cc = 1)) = true := by decide

/-! Traps and interrupts (95_test_vectors.md). -/

/-- An undefined encoding in PSD mode: the old PSD holds the address after it, the status word its bit 10. -/
theorem test_undefined_trap : Tests.next (step (Tests.words (Tests.put Tests.psd [(0x1000, [0x08, 0x0F])]) [(0x194, 0xA00), (0xA08, 0x80002000)]))
    (fun t => decide (Memory.read32 t.mem 0xA00 = 0x80001002 ∧ t.pc.toNat * 2 = 0x2000)) = true := by decide
/-- A privileged instruction in the unprivileged state. -/
theorem test_privilege_trap : Tests.next (step (Tests.words (Tests.put { Tests.psd with priv := false } [(0x1000, [0x00, 0x00])]) [(0x198, 0xA00), (0xA08, 0x80002000)]))
    (fun t => decide (Memory.read32 t.mem 0xA00 = 0x00001002 ∧ t.priv = true ∧ t.pc.toNat * 2 = 0x2000)) = true := by decide
/-- An interrupt before the instruction at the program counter. -/
theorem test_interrupt : Tests.next (step (Tests.words { Tests.psd with enabled := 1#128 <<< 0x13, requesting := 1#128 <<< 0x13 }
      [(0xEC, 0xA00), (0xA08, 0x80002000)]))
    (fun t => decide (Memory.read32 t.mem 0xA00 = 0x80001000 ∧ t.active = 1#128 <<< 0x13 ∧ t.requesting = 0 ∧ t.pc.toNat * 2 = 0x2000)) = true := by decide


/-- What bus agents write between the two words of LD is seen by the second alone (53_input_output.md R572): the low-order word is
read first. The fetch is a transaction of its own. -/
theorem test_bus_between_words : Tests.next (step (Tests.words { Tests.psd with bus := [[], [], [(0x3000, 0xAA), (0x3004, 0xBB)]] }
      [(0x1000, 0xAD003002), (0x3000, 0x11223344), (0x3004, 0x55667788)]))
    (fun t => decide (t.reg 2 = 0xAA223344 ∧ t.reg 3 = 0x55667788 ∧ t.bus = [])) = true := by decide
/-- Nothing falls between the read and the write of SBM (48_bit_manipulation.md R410). -/
theorem test_bus_locked_out : Tests.next (step (Tests.words { Tests.psd with bus := [[], [], [(0x3000, 0xAA)]] } [(0x1000, 0x98083000)]))
    (fun t => decide (Memory.read t.mem 0x3000 = 0x80 ∧ t.bus = [[(0x3000, 0xAA)]])) = true := by decide
/-- An IPU's status bit 23 is set with the arithmetic exception, not at its trap (60_exceptions.md R640): ADR of 7FFFFFFF and 1,
with the mask on and off. -/
theorem test_ipu_arithmetic_status :
    let s (mask : Bool) : State := Tests.put { (Tests.ipu.setReg 1 0x7FFFFFFF).setReg 2 1 with aexp := mask } [(0x1000, [0x38, 0xA0])]
    Tests.next (step (s true)) (fun t => decide (t.reg 1 = 0x80000000 ∧ t.status &&& 0x100 = 0x100) && t.pendingArith) = true ∧
    Tests.next (step (s false)) (fun t => decide (t.reg 1 = 0x80000000 ∧ t.status &&& 0x100 = 0) && !t.pendingArith) = true := by decide
/-- A bus agent's write between the two words of ARMD falls after the low-order word's write and before the other word's
read: 1 is added to X'00000002FFFFFFFF', whose words then become X'AA000003' and X'BB000000' (49_fixed_point.md R431). -/
theorem test_bus_between_armd : Tests.next (step (Tests.words { Tests.psd.setReg 3 1 with bus := [[], [], [(0x3000, 0xAA), (0x3004, 0xBB)]] }
      [(0x1000, 0xE9003002), (0x3000, 2), (0x3004, 0xFFFFFFFF)]))
    (fun t => decide (Memory.read32 t.mem 0x3000 = 0xAA000003 ∧ Memory.read32 t.mem 0x3004 = 0xBB000000 ∧ t.bus = [])) = true := by decide
/-- An IPU counts its blocked instructions (10_state.md R21, R58): NOP, with no timeout to come. -/
theorem test_ipu_counts : Tests.next (step (Tests.put { Tests.ipu with blocked := true, blockCount := 128, bmtoEnabled := true } [(0x1000, [0x00, 0x02])]))
    (fun t => decide (t.blockCount = 129) && !t.pendingTimeout) = true := by decide

/-! ## Witnesses: the hypotheses of each statement are met together -/

theorem Tests.next_of {o : Outcome} {p : State → Bool} (h : Tests.next o p = true) : ∃ t, o = .next t ∧ p t = true := by
  cases o with
  | next t => exact ⟨t, rfl, h⟩
  | fault f => cases h
  | refused r => cases h

/-- The effective address of a word exists and is as `p` says. -/
def Tests.eff (s : State) (w : Word) (p : Effective → Bool) : Bool :=
  match s.effective w with
  | .ok e _ => p e
  | _ => false

theorem Tests.eff_of {s : State} {w : Word} {p : Effective → Bool} (h : Tests.eff s w p = true) :
    ∃ e s1, s.effective w = .ok e s1 ∧ p e = true := by
  unfold Tests.eff at h
  split at h
  · rename_i e s1 he; exact ⟨e, s1, he, h⟩
  · cases h

/-- An access reaches the real address that is its logical one. -/
def Tests.reaches (s : State) (k : Access) (a : Addr) (n : Nat) : Bool :=
  match s.locate k a n with
  | .ok pa => decide (pa = a)
  | .error _ => false

theorem Tests.reaches_of {s : State} {k : Access} {a : Addr} {n : Nat} (h : Tests.reaches s k a n = true) :
    s.locate k a n = .ok a := by
  unfold Tests.reaches at h
  split at h
  · rename_i pa he; rw [he, of_decide_eq_true h]
  · cases h

/-- No bus agent writes, the operand of the word `w` is `o`, and every access of kind `k` to it reaches memory. -/
def Tests.operand (s : State) (k : Access) (w : Word) (o : Operand) : Bool :=
  decide (s.bus = []) && Tests.eff s w (fun e => decide (e.operand = o)) &&
    match o with
    | .byte a => Tests.reaches s k a 1
    | .half a => Tests.reaches s k a 2
    | .word a => Tests.reaches s k a 4
    | .double a => Tests.reaches s k a 4 && Tests.reaches s k (a + 4) 4

/-- The operand of the word `w` is `o`, and it can be read. -/
def Tests.Readable (s : State) (w : Word) (o : Operand) : Prop :=
  s.Alone ∧ (∃ e s1, s.effective w = .ok e s1 ∧ e.operand = o) ∧
    match o with
    | .byte a => ∃ v, s.ReadsByte a v
    | .half a => ∃ v, s.ReadsHalf a v
    | .word a => ∃ v, s.ReadsWord a v
    | .double a => ∃ hi lo, s.ReadsWord a hi ∧ s.ReadsWord (a + 4) lo

/-- The operand of the word `w` is `o`, and it can be written. -/
def Tests.Writable (s : State) (w : Word) (o : Operand) : Prop :=
  s.Alone ∧ (∃ e s1, s.effective w = .ok e s1 ∧ e.operand = o) ∧
    match o with
    | .byte a => ∃ pa, s.locate .write a 1 = .ok pa
    | .half a => ∃ pa, s.locate .write a 2 = .ok pa
    | .word a => ∃ pa, s.locate .write a 4 = .ok pa
    | .double a => ∃ ph pl, s.locate .write a 4 = .ok ph ∧ s.locate .write (a + 4) 4 = .ok pl

theorem Tests.operand_of {s : State} {k : Access} {w : Word} {o : Operand} (h : Tests.operand s k w o = true) :
    s.Alone ∧ ∃ e s1, s.effective w = .ok e s1 ∧ e.operand = o := by
  have h1 := Bool.and_eq_true_iff.1 (Bool.and_eq_true_iff.1 h).1
  obtain ⟨e, s1, he, hp⟩ := Tests.eff_of h1.2
  have hb : s.bus = [] := of_decide_eq_true h1.1
  exact ⟨hb, e, s1, he, of_decide_eq_true hp⟩

theorem Tests.readable_of {s : State} {w : Word} {o : Operand} (h : Tests.operand s .read w o = true) :
    Tests.Readable s w o := by
  refine ⟨(Tests.operand_of h).1, (Tests.operand_of h).2, ?_⟩
  have h2 := (Bool.and_eq_true_iff.1 h).2
  cases o with
  | byte a => exact ⟨_, a, Tests.reaches_of h2, rfl⟩
  | half a => exact ⟨_, a, Tests.reaches_of h2, rfl⟩
  | word a => exact ⟨_, a, Tests.reaches_of h2, rfl⟩
  | double a =>
    have h3 := Bool.and_eq_true_iff.1 h2
    exact ⟨_, _, ⟨a, Tests.reaches_of h3.1, rfl⟩, ⟨a + 4, Tests.reaches_of h3.2, rfl⟩⟩

theorem Tests.writable_of {s : State} {w : Word} {o : Operand} (h : Tests.operand s .write w o = true) :
    Tests.Writable s w o := by
  refine ⟨(Tests.operand_of h).1, (Tests.operand_of h).2, ?_⟩
  have h2 := (Bool.and_eq_true_iff.1 h).2
  cases o with
  | byte a => exact ⟨a, Tests.reaches_of h2⟩
  | half a => exact ⟨a, Tests.reaches_of h2⟩
  | word a => exact ⟨a, Tests.reaches_of h2⟩
  | double a => exact ⟨a, a + 4, Tests.reaches_of (Bool.and_eq_true_iff.1 h2).1, Tests.reaches_of (Bool.and_eq_true_iff.1 h2).2⟩

/-- No bus agent writes, and an access of kind `k` to the operand of the word `w` raises `t`; of a doubleword the low-order word
does, or `second`, only the other. -/
def Tests.Faults (s : State) (k : Access) (w : Word) (second : Bool) (t : Trap) : Prop :=
  s.Alone ∧ ∃ e s1, s.effective w = .ok e s1 ∧
    match e.operand with
    | .byte a => s.locate k a 1 = .error t
    | .half a => s.locate k a 2 = .error t
    | .word a => s.locate k a 4 = .error t
    | .double a => if second then (∃ pa, s.locate k (a + 4) 4 = .ok pa) ∧ s.locate k a 4 = .error t else s.locate k (a + 4) 4 = .error t

/-- Absent memory beyond X'7FFFF', at the last word, and at the word before it; nothing mapped; every page protected; a byte
with a parity error. -/
def Tests.beyond : State := Tests.regs { Tests.psd with ext := true } [(1, 0x80000)]
def Tests.gap (r : List MemRange) : State := { Tests.psd with cfg := { Config.default with memPresent := r } }
def Tests.unmapped : State := { Tests.psd with mapped := true }
def Tests.protect : State := { Tests.psd with priv := false, prot := Vector.replicate 16 0xFFFF }
def Tests.parity : State := { Tests.psd with parityBad := [0x7FFFF] }

/-- Operands of each kind that cannot be read, for each reason; an indirect chain that traps. -/
theorem Tests.readFaults :
    Tests.Faults Tests.beyond .read (MemRef.ofByte ⟨1, false, 0⟩).word false (.nonpresent false) ∧
    Tests.Faults Tests.unmapped .read (MemRef.ofHalf ⟨0, false, 0⟩).word false (.mapFault false) ∧
    Tests.Faults Tests.parity .read (MemRef.ofWord ⟨0, false, 0x1FFFF⟩).word false (.memoryParity false) ∧
    Tests.Faults Tests.parity .read (MemRef.ofDouble ⟨0, false, 0x1FFFE⟩).word false (.memoryParity false) ∧
    Tests.Faults { Tests.psd with parityBad := [0x7FFF8] } .read (MemRef.ofDouble ⟨0, false, 0x1FFFE⟩).word true (.memoryParity false) ∧
    ∃ t s1, Tests.unmapped.effective (MemRef.ofWord ⟨0, true, 0⟩).word = .trap t s1 :=
  ⟨⟨rfl, _, _, rfl, rfl⟩, ⟨rfl, _, _, rfl, rfl⟩, ⟨rfl, _, _, rfl, rfl⟩, ⟨rfl, _, _, rfl, rfl⟩, ⟨rfl, _, _, rfl, ⟨_, rfl⟩, rfl⟩, _, _, rfl⟩

/-- Operands of each kind that cannot be written, for each reason; an indirect chain that traps. -/
theorem Tests.writeFaults :
    Tests.Faults Tests.beyond .write (MemRef.ofByte ⟨1, false, 0⟩).word false (.nonpresent false) ∧
    Tests.Faults Tests.unmapped .write (MemRef.ofHalf ⟨0, false, 0⟩).word false (.mapFault false) ∧
    Tests.Faults Tests.protect .write (MemRef.ofWord ⟨0, false, 0x1FFFF⟩).word false .privilege ∧
    Tests.Faults Tests.protect .write (MemRef.ofDouble ⟨0, false, 0x1FFFE⟩).word false .privilege ∧
    Tests.Faults (Tests.gap [⟨0, 0x7FFF8⟩, ⟨0x7FFFC, 4⟩]) .write (MemRef.ofDouble ⟨0, false, 0x1FFFE⟩).word true (.nonpresent false) ∧
    ∃ t s1, Tests.unmapped.effective (MemRef.ofWord ⟨0, true, 0⟩).word = .trap t s1 :=
  ⟨⟨rfl, _, _, rfl, rfl⟩, ⟨rfl, _, _, rfl, rfl⟩, ⟨rfl, _, _, rfl, rfl⟩, ⟨rfl, _, _, rfl, rfl⟩, ⟨rfl, _, _, rfl, ⟨_, rfl⟩, rfl⟩, _, _, rfl⟩

/-- The four kinds of operand can be read at the first and at the last address, and one through the index register X1. -/
def Tests.ReadsAll : Prop :=
  Tests.Readable Tests.psd (MemRef.ofByte ⟨0, false, 0⟩).word (.byte 0) ∧
  Tests.Readable Tests.psd (MemRef.ofByte ⟨0, false, 0x7FFFF⟩).word (.byte 0x7FFFF) ∧
  Tests.Readable Tests.psd (MemRef.ofHalf ⟨0, false, 0⟩).word (.half 0) ∧
  Tests.Readable Tests.psd (MemRef.ofHalf ⟨0, false, 0x3FFFF⟩).word (.half 0x7FFFE) ∧
  Tests.Readable Tests.psd (MemRef.ofWord ⟨0, false, 0⟩).word (.word 0) ∧
  Tests.Readable Tests.psd (MemRef.ofWord ⟨0, false, 0x1FFFF⟩).word (.word 0x7FFFC) ∧
  Tests.Readable Tests.psd (MemRef.ofDouble ⟨0, false, 0⟩).word (.double 0) ∧
  Tests.Readable Tests.psd (MemRef.ofDouble ⟨0, false, 0x1FFFE⟩).word (.double 0x7FFF8) ∧
  Tests.Readable Tests.psd (MemRef.ofWide ⟨0, false, 0x3FFFE⟩).word (.word 0x7FFFC) ∧
  Tests.Readable (Tests.regs Tests.psd [(1, 4)]) (MemRef.ofWord ⟨1, false, 0⟩).word (.word 4)

theorem Tests.readsAll : Tests.ReadsAll :=
  ⟨Tests.readable_of (by decide), Tests.readable_of (by decide), Tests.readable_of (by decide), Tests.readable_of (by decide),
    Tests.readable_of (by decide), Tests.readable_of (by decide), Tests.readable_of (by decide), Tests.readable_of (by decide),
    Tests.readable_of (by decide), Tests.readable_of (by decide)⟩

/-- The four kinds of operand can be written at the first and at the last address. -/
def Tests.WritesAll : Prop :=
  Tests.Writable Tests.psd (MemRef.ofByte ⟨0, false, 0⟩).word (.byte 0) ∧
  Tests.Writable Tests.psd (MemRef.ofByte ⟨0, false, 0x7FFFF⟩).word (.byte 0x7FFFF) ∧
  Tests.Writable Tests.psd (MemRef.ofHalf ⟨0, false, 0⟩).word (.half 0) ∧
  Tests.Writable Tests.psd (MemRef.ofHalf ⟨0, false, 0x3FFFF⟩).word (.half 0x7FFFE) ∧
  Tests.Writable Tests.psd (MemRef.ofWord ⟨0, false, 0⟩).word (.word 0) ∧
  Tests.Writable Tests.psd (MemRef.ofWord ⟨0, false, 0x1FFFF⟩).word (.word 0x7FFFC) ∧
  Tests.Writable Tests.psd (MemRef.ofDouble ⟨0, false, 0⟩).word (.double 0) ∧
  Tests.Writable Tests.psd (MemRef.ofDouble ⟨0, false, 0x1FFFE⟩).word (.double 0x7FFF8)

theorem Tests.writesAll : Tests.WritesAll :=
  ⟨Tests.writable_of (by decide), Tests.writable_of (by decide), Tests.writable_of (by decide), Tests.writable_of (by decide),
    Tests.writable_of (by decide), Tests.writable_of (by decide), Tests.writable_of (by decide), Tests.writable_of (by decide)⟩

/-- No bus agent writes, and an operand of `n` bytes at `a` cannot be both read and written. -/
def Tests.FaultsAt (s : State) (a : Addr) (n : Nat) : Prop := s.Alone ∧ ∃ t, s.ModifyFault a n t

/-- A byte, halfword or word at the last address can be both read and written. -/
theorem Tests.modifies : Tests.psd.Modifies 0x7FFFF 1 0x7FFFF ∧ Tests.psd.Modifies 0x7FFFE 2 0x7FFFE ∧
    Tests.psd.Modifies 0x7FFFC 4 0x7FFFC ∧ Tests.psd.Modifies 0x7FFF8 4 0x7FFF8 :=
  ⟨⟨Tests.reaches_of (by decide), Tests.reaches_of (by decide)⟩, ⟨Tests.reaches_of (by decide), Tests.reaches_of (by decide)⟩,
    ⟨Tests.reaches_of (by decide), Tests.reaches_of (by decide)⟩, ⟨Tests.reaches_of (by decide), Tests.reaches_of (by decide)⟩⟩

theorem witness_DecodeEncodeRoundTrip : wellFormed (.lw 7 ⟨3, true, 0x1FFFF⟩) = true ∧ decode (.half 0x0002) = some .nop ∧
    decode (.word 0xC9800004) = some (.li 3 4) := by decide

theorem witness_MemoryReadAfterWrite : (Tests.words Tests.psd [(0x7FFFC, 0x12345678)]).MemoryInv := ⟨by decide, by decide⟩

/-- Unmapped and mapped, privileged and not; protected by map and by protect register; absent; with a parity error. -/
theorem witness_TranslationAndProtection :
    let mapped : State := { Tests.psd with mapped := true, map := Tests.psd.map.set 31 0xC00F }
    let user (s : State) : State := { s with priv := false }
    Tests.psd.mapped = false ∧ Tests.psd.priv = true ∧ mapped.mapped = true ∧
    (0x100000 ≤ (0x100000 : Addr).toNat) ∧ (0 : Addr).toNat / 0x8000 = 0 ∧ (0xFFFFF : Addr).toNat / 0x8000 = 31 ∧
    (user mapped).priv = false ∧ (user mapped).mapped = true ∧ (user Tests.psd).mapped = false ∧
    0x80000 ≤ (0x80000 : Addr).toNat ∧ (0x7FFFF : Addr).toNat / 0x8000 = 15 ∧
    mapped.translate 0 = none ∧ mapped.translate 0xFFFFF = some 0x07FFFF ∧
    (user mapped).translate 0xFFFFF = some 0x07FFFF ∧ (user mapped).writeProtected 0xFFFFF = true ∧
    Tests.psd.translate 0x80000 = some 0x80000 ∧ Tests.psd.writeProtected 0x80000 = false ∧ Tests.psd.present 0x80000 1 = false ∧
    Tests.psd.present 0x7FFFF 1 = true ∧ Tests.psd.parityAt 0x7FFFF 1 = false ∧
    { Tests.psd with parityBad := [0x7FFFF] }.parityAt 0x7FFFF 1 = true := by decide

/-- One effective address of each operand kind, and an indirect word that ends its chain. -/
theorem witness_EffectiveAddressAndOperand :
    (∃ e : Effective, e.ef = true) ∧ (∃ e : Effective, e.ef = false ∧ e.ea.toNat % 4 = 0) ∧
    (∃ e : Effective, e.ef = false ∧ e.ea.toNat % 2 = 1) ∧ (∃ e : Effective, e.ef = false ∧ e.ea.toNat % 4 = 2) ∧
    (0 : Word).getLsbD 20 = false ∧ Tests.psd.Alone ∧
    Tests.psd.ReadsWord (BitVec.ofNat 24 (levelAddress Tests.psd.ext 0x7FFFF (Tests.psd.indexNumber 0) / 4 * 4 % 2 ^ 19)) 0 :=
  ⟨⟨⟨true, 0, 0, 0⟩, rfl⟩, ⟨⟨false, 0x200, 0, 0⟩, by decide⟩, ⟨⟨false, 0x201, 0, 0⟩, by decide⟩, ⟨⟨false, 0x202, 0, 0⟩, by decide⟩,
    by decide, rfl, 0x7FFFC, Tests.reaches_of (by decide), by decide⟩

/-- A boundary passes to a fetch: a halfword and a word that decode, one of each that does not, and a word in a right
halfword; a bus agent's write before the fetch; a fetch whose first halfword, or whose second alone, fails, in PSD mode, and in
PSW mode where the trap is entered or dropped. -/
theorem witness_StepRunsDecoded :
    let ready (s : State) : Prop := s.inputs = [] ∧ s.runState = .run ∧ boundary s = .pass s
    let fetches (s : State) : Prop := ready s ∧ s.transact = s ∧ s.locate .fetch s.pcAddr 2 = .ok s.pcAddr
    let bus : State := { Tests.psd with bus := [[(0x1001, 0x02)]] }
    let bad1 (s : State) : State := { s with parityBad := [0x1000] }
    let bad2 (s : State) : State := { Tests.words s [(0x1000, 0xC9800004)] with parityBad := [0x1002] }
    let open_ : State := { Tests.psw with enabled := 1#128 <<< 0x12 }
    let nop := Tests.put Tests.psd [(0x1000, [0x00, 0x02])]
    let bad := Tests.put Tests.psd [(0x1000, [0x08, 0x0F])]
    let li := Tests.words Tests.psd [(0x1000, 0xC9800004)]
    let badWord := Tests.words Tests.psd [(0x1000, 0x2C170000)]
    let right := Tests.words { Tests.psd with pc := 0x801 } [(0x1002, 0xC9800004)]
    (fetches nop ∧ isHalfword (Memory.read16 nop.mem 0x1000) = true ∧ decode (.half (Memory.read16 nop.mem 0x1000)) = some .nop) ∧
    (fetches bad ∧ isHalfword (Memory.read16 bad.mem 0x1000) = true ∧ decode (.half (Memory.read16 bad.mem 0x1000)) = none) ∧
    (fetches li ∧ isHalfword (Memory.read16 li.mem 0x1000) = false ∧ li.pc.getLsbD 0 = false ∧
      li.locate .fetch li.pcAddr 4 = .ok 0x1000 ∧ decode (.word (Memory.read32 li.mem 0x1000)) = some (.li 3 4)) ∧
    (fetches badWord ∧ isHalfword (Memory.read16 badWord.mem 0x1000) = false ∧ badWord.pc.getLsbD 0 = false ∧
      badWord.locate .fetch badWord.pcAddr 4 = .ok 0x1000 ∧ decode (.word (Memory.read32 badWord.mem 0x1000)) = none) ∧
    (fetches right ∧ isHalfword (Memory.read16 right.mem 0x1002) = false ∧ right.pc.getLsbD 0 = true) ∧
    (ready bus ∧ bus.transact.locate .fetch bus.pcAddr 2 = .ok 0x1000 ∧ decode (.half (Memory.read16 bus.transact.mem 0x1000)) = some .nop) ∧
    (∀ s ∈ [Tests.psd, Tests.psw, open_], ready (bad1 s) ∧ (bad1 s).transact.locate .fetch (bad1 s).pcAddr 2 = .error (.memoryParity true)) ∧
    (∀ s ∈ [Tests.psd, Tests.psw, open_], ready (bad2 s) ∧ (bad2 s).transact.locate .fetch (bad2 s).pcAddr 2 = .ok 0x1000 ∧
      isHalfword (Memory.read16 (bad2 s).transact.mem 0x1000) = false ∧
      (bad2 s).transact.locate .fetch (bad2 s).pcAddr 4 = .error (.memoryParity true)) ∧
    Tests.psw.cfg.role = .cpu ∧ Tests.psw.mode = .psw ∧ Tests.psw.pswEnters (.memoryParity true) = none ∧
    open_.pswEnters (.memoryParity true) ≠ none :=
  ⟨⟨⟨⟨rfl, rfl, rfl⟩, rfl, rfl⟩, by decide, by decide⟩, ⟨⟨⟨rfl, rfl, rfl⟩, rfl, rfl⟩, by decide, by decide⟩,
    ⟨⟨⟨rfl, rfl, rfl⟩, rfl, rfl⟩, by decide, by decide, rfl, by decide⟩, ⟨⟨⟨rfl, rfl, rfl⟩, rfl, rfl⟩, by decide, by decide, rfl, by decide⟩,
    ⟨⟨⟨rfl, rfl, rfl⟩, rfl, rfl⟩, by decide, by decide⟩, ⟨⟨rfl, rfl, rfl⟩, rfl, by decide⟩,
    by simp only [List.forall_mem_cons, List.not_mem_nil, false_implies, implies_true, and_true]
       exact ⟨⟨⟨rfl, rfl, rfl⟩, rfl⟩, ⟨⟨rfl, rfl, rfl⟩, rfl⟩, ⟨rfl, rfl, rfl⟩, rfl⟩,
    by simp only [List.forall_mem_cons, List.not_mem_nil, false_implies, implies_true, and_true]
       exact ⟨⟨⟨rfl, rfl, rfl⟩, rfl, by decide, rfl⟩, ⟨⟨rfl, rfl, rfl⟩, rfl, by decide, rfl⟩, ⟨rfl, rfl, rfl⟩, rfl, by decide, rfl⟩,
    rfl, rfl, by decide, by decide⟩

theorem witness_AcknowledgedLevel :
    let asks : State := { Tests.psd with enabled := 1#128 <<< 0x13, requesting := 1#128 <<< 0x13 }
    Tests.psd.Quiet ∧ Tests.psd.cfg.role = .cpu ∧ Tests.psd.nonint = false ∧ ¬(Tests.psd.mode = .psd ∧ Tests.psd.blocked = true) ∧
    Tests.psd.eligible = none ∧ asks.Quiet ∧ asks.eligible = some 0x13 ∧
    { asks with nonint := true }.Quiet ∧ { asks with blocked := true }.Quiet ∧ asks.mode = .psd :=
  ⟨⟨rfl, rfl, rfl, rfl, rfl, rfl, rfl⟩, rfl, rfl, by decide, by decide, ⟨rfl, rfl, rfl, rfl, rfl, rfl, rfl⟩, by decide,
    ⟨rfl, rfl, rfl, rfl, rfl, rfl, rfl⟩, ⟨rfl, rfl, rfl, rfl, rfl, rfl, rfl⟩, rfl⟩

theorem witness_WatchdogCounts : Tests.psd.cfg.role = .cpu ∧ Tests.psd.mode = .psd ∧ Tests.psd.abandoned = false ∧
    Tests.psd.blocked = false ∧ { Tests.psd with blocked := true, blockCount := 128 }.blocked = true ∧
    Tests.ipu.cfg.role = .ipu ∧ Tests.ipu.mode = .psd ∧ Tests.ipu.abandoned = false := by decide

theorem witness_StepKeepsMemoryForm : Tests.psd.MemoryInv ∧ ∃ t, step Tests.psd = .next t :=
  ⟨⟨rfl, rfl⟩, (Tests.next_of (p := fun _ => true) (by decide)).imp fun _ h => h.1⟩

theorem witness_StepKeepsModesAndRest : Tests.psd.ModeInv ∧ Tests.psd.RestInv ∧ ∃ t, step Tests.psd = .next t :=
  ⟨by unfold State.ModeInv; decide, by unfold State.RestInv; decide, (Tests.next_of (p := fun _ => true) (by decide)).imp fun _ h => h.1⟩

theorem witness_PrivChangesByPsdLoadAlone : mayLoadPsd (.lb 1 ⟨0, false, 0x7FFFF⟩) = false ∧
    ∃ t, exec (.lb 1 ⟨0, false, 0x7FFFF⟩) Tests.psd = .next t ∧ (!t.abandoned) = true :=
  ⟨rfl, Tests.next_of (by decide)⟩

theorem witness_ModeChangesBySetcpuAlone : (∃ t, exec .halt Tests.psd = .next t) ∧
    (∀ r, Instr.halt ≠ .setcpu r ∧ Instr.halt ≠ .exr r ∧ Instr.halt ≠ .exrr r) ∧ ∀ m, Instr.halt ≠ .exm m :=
  ⟨⟨_, rfl⟩, fun _ => ⟨nofun, nofun, nofun⟩, nofun⟩

theorem witness_OrdinaryInstructionFrame : isOrdinary (.stw 7 ⟨0, false, 0x1FFFF⟩) = true ∧
    ∃ t, exec (.stw 7 ⟨0, false, 0x1FFFF⟩) Tests.psd = .next t ∧ (!t.abandoned) = true :=
  ⟨rfl, Tests.next_of (by decide)⟩

theorem witness_NonStoringKeepsMemory : Tests.psd.Alone ∧ mayStore (.lw 1 ⟨0, false, 0x1FFFF⟩) = false ∧
    ∃ t, exec (.lw 1 ⟨0, false, 0x1FFFF⟩) Tests.psd = .next t ∧ (!t.abandoned) = true :=
  ⟨rfl, rfl, Tests.next_of (by decide)⟩

theorem witness_StoreFrame : Tests.psd.MemoryInv ∧ Tests.psd.Alone ∧ Tests.wcs.Alone ∧ Tests.WritesAll ∧
    (∃ t, exec (.stb 7 ⟨0, false, 0x7FFFF⟩) Tests.psd = .next t ∧ (!t.abandoned) = true) ∧
    (∃ t, exec (.sth 7 ⟨0, false, 0x3FFFF⟩) Tests.psd = .next t ∧ (!t.abandoned) = true) ∧
    (∃ t, exec (.stw 7 ⟨0, false, 0x1FFFF⟩) Tests.psd = .next t ∧ (!t.abandoned) = true) ∧
    (∃ t, exec (.std 7 ⟨0, false, 0x1FFFE⟩) Tests.psd = .next t ∧ (!t.abandoned) = true) ∧
    ((∃ e s1, Tests.psd.effective (MemRef.word ⟨0, false, 0x7FFFC⟩) = .ok e s1 ∧ decide (e.ea = 0x7FFFC) = true) ∧
      (∀ k, k < 8 - (7 : Reg).toNat → Tests.psd.locate .write (fileAddress 0x7FFFC k) 4 = .ok 0x7FFFC) ∧
      ∃ t, exec (.stf 7 ⟨0, false, 0x7FFFC⟩) Tests.psd = .next t ∧ (!t.abandoned) = true) ∧
    ((∃ e s1, Tests.psd.effective (MemRef.word ⟨0, false, 0xFFFFF⟩) = .ok e s1 ∧ decide (e.ea = 0x7FFFF) = true) ∧
      Tests.psd.locate .write 0x7FFFF 1 = .ok 0x7FFFF ∧
      Tests.psd.locate .write (BitVec.ofNat 24 ((0x7FFFF : Addr).toNat / 4 * 4)) 4 = .ok 0x7FFFC ∧
      (∃ t, exec (.sbm 7 ⟨0, false, 0xFFFFF⟩) Tests.psd = .next t ∧ (!t.abandoned) = true) ∧
      (∃ t, exec (.zbm 7 ⟨0, false, 0xFFFFF⟩) Tests.psd = .next t ∧ (!t.abandoned) = true) ∧
      ∃ t, exec (.abm 7 ⟨0, false, 0xFFFFF⟩) Tests.psd = .next t ∧ (!t.abandoned) = true) ∧
    (let s := Tests.regs Tests.wcs [(1, 0x7FFFC), (2, 2047)]
     s.locate .write (s.wcsOperand (s.reg 1)) 4 = .ok 0x7FFFC ∧ s.locate .write (s.wcsOperandNext (s.reg 1)) 4 = .ok 0 ∧
     ∃ t, exec (.rwcs 2 1) s = .next t ∧ (!t.abandoned) = true) :=
  ⟨⟨rfl, rfl⟩, rfl, rfl, Tests.writesAll, Tests.next_of (by decide), Tests.next_of (by decide), Tests.next_of (by decide), Tests.next_of (by decide),
    ⟨Tests.eff_of (by decide), fun k h => Nat.lt_one_iff.1 h ▸ Tests.reaches_of (by decide), Tests.next_of (by decide)⟩,
    ⟨Tests.eff_of (by decide), Tests.reaches_of (by decide), Tests.reaches_of (by decide), Tests.next_of (by decide),
      Tests.next_of (by decide), Tests.next_of (by decide)⟩,
    Tests.reaches_of (by decide), Tests.reaches_of (by decide), Tests.next_of (by decide)⟩

theorem witness_ChecksBeforeExecution :
    (isPsdOnly .eae = true ∧ Tests.psw.mode = .psw) ∧ (isCpuOnly .bei = true ∧ Tests.ipu.cfg.role = .ipu) ∧
    ({ Tests.psd with priv := false }.priv = false ∧ isPrivileged .eae = true ∧ Tests.psd.mode = .psd) ∧
    (isPrivileged (.ei 0x13) = true ∧ Tests.psd.cfg.role = .cpu) ∧ Tests.psd.cfg.psdJumper = true ∧
    ({ Tests.ipu with priv := false }.priv = false ∧ Tests.ipu.cfg.role = .ipu) := by decide

theorem witness_VectorTable : 0x14 ≤ (0x14 : Level).toNat ∧ (0x23 : Level).toNat ≤ 0x23 ∧ 0x24 ≤ (0x24 : Level).toNat ∧
    0x24 ≤ (0x7F : Level).toNat := by decide

/-- A context block at X'A00', its new PSD words at X'A08'. -/
def Tests.block (s : State) (vector n1 n2 : Nat) : State := Tests.words s [(vector, 0xA00), (0xA08, n1), (0xA0C, n2)]

/-- What the entry statements ask of vector and context block. -/
def Tests.Entry (s : State) (vector : Addr) (n1 n2 : Word) : Prop :=
  s.MemoryInv ∧ s.Alone ∧ s.realRead vector = .ok 0xA00 ∧ s.BlockAt ((0xA00 : Word).extractLsb' 0 24) n1 n2 ∧ keepsMap n2

theorem Tests.entry_of {s : State} {vector : Addr} {n1 n2 : Word}
    (h : ((Memory.wf s.mem = true ∧ Wcs.wf s.wcs = true) ∧ s.bus = [] ∧ s.realRead vector = .ok 0xA00 ∧
      (s.present 0xA00 4 = true ∧ s.present 0xA04 4 = true ∧ s.present 0xA10 4 = true ∧ s.realRead 0xA08 = .ok n1 ∧
        s.realRead 0xA0C = .ok n2) ∧ (n2.toNat < 0x40000000 ∨ n2.getLsbD 16 = true))) : Tests.Entry s vector n1 n2 := h

/-- `s` with a process of one segment of two pages behind the map list pointer X'2000', at index 2; PSD word 2 X'40000008' names
it. -/
def Tests.process (s : State) : State :=
  Tests.words { s with spad := s.spad.set 0xF3 0x2000 } [(0x2008, 0x01002100), (0x2100, 0x02002200), (0x2200, 0x8000C003)]

/-- Consecutive segment descriptors, from their words. -/
theorem Tests.segments_of {s : State} {a : Addr} (l : List (Word × List Half))
    (h : ∀ j (h : j < l.length), s.realRead (a + BitVec.ofNat 24 (4 * j)) = .ok l[j].1 ∧ l[j].2.length = l[j].1.toNat / 2 ^ 24 ∧
      ∀ k (h : k < l[j].2.length), s.realRead16 (l[j].1.extractLsb' 0 24 + BitVec.ofNat 24 (2 * k)) = .ok l[j].2[k]) :
    s.SegmentsAt a (l.map Prod.snd) := by
  intro j hj
  have hl : j < l.length := by simpa using hj
  rw [List.getElem_map]
  exact ⟨_, h j hl⟩

/-- The pages of a process with its own segments alone. -/
theorem Tests.pages_of {s : State} {n2 mscd : Word} (l : List (Word × List Half))
    (h1 : s.realRead (s.mplAddr + BitVec.ofNat 24 (n2.toNat / 4 % 4096 * 4)) = .ok mscd)
    (h2 : mscd.toNat / 2 ^ 31 = 0) (h3 : l.length = mscd.toNat / 2 ^ 24 % 64)
    (h4 : ∀ j (h : j < l.length), s.realRead (mscd.extractLsb' 0 24 + BitVec.ofNat 24 (4 * j)) = .ok l[j].1 ∧
      l[j].2.length = l[j].1.toNat / 2 ^ 24 ∧
      ∀ k (h : k < l[j].2.length), s.realRead16 (l[j].1.extractLsb' 0 24 + BitVec.ofNat 24 (2 * k)) = .ok l[j].2[k]) :
    s.ProcessPages n2 (l.map Prod.snd).flatten :=
  ⟨mscd, h1, l.map Prod.snd, Tests.segments_of l h4, by rw [if_pos h2]; exact ⟨by rw [List.length_map, h3], rfl⟩⟩

/-- The map a PSD load with word 2 X'40000008' makes of `Tests.process`. -/
theorem Tests.newMap_of {s : State}
    (h : s.realRead (s.mplAddr + 8) = .ok 0x01002100 ∧ s.realRead 0x2100 = .ok 0x02002200 ∧ s.realRead16 0x2200 = .ok 0x8000 ∧
      s.realRead16 0x2202 = .ok 0xC003) : s.NewMap 0x40000008 (mapOf [0x8000, 0xC003]) := by
  refine Or.inr ⟨by unfold keepsMap; decide, [0x8000, 0xC003], by decide,
    Tests.pages_of [(0x02002200, [0x8000, 0xC003])] h.1 (by decide) (by decide) fun j hj => ?_, rfl⟩
  obtain rfl : j = 0 := Nat.lt_one_iff.1 hj
  refine ⟨h.2.1, show 2 = (0x02002200 : Word).toNat / 2 ^ 24 by decide, fun k hk => ?_⟩
  obtain rfl | rfl : k = 0 ∨ k = 1 := by have : k < 2 := hk; omega
  · exact (congrArg s.realRead16 (show (0x02002200 : Word).extractLsb' 0 24 + BitVec.ofNat 24 (2 * 0) = (0x2200 : Addr) by decide)).trans h.2.2.1
  · exact (congrArg s.realRead16 (show (0x02002200 : Word).extractLsb' 0 24 + BitVec.ofNat 24 (2 * 1) = (0x2202 : Addr) by decide)).trans h.2.2.2

/-- An entry whose new PSD keeps the map, the map after it. -/
theorem Tests.keeps {s old : State} {icb : Addr} {fifth n2 : Word} (h : keepsMap n2) :
    s.EntryMap old icb fifth n2 ((s.storedPsd old icb).poke32 (icb + 16) fifth).map := ⟨Or.inl ⟨h, rfl⟩, Or.inl h⟩

/-- An arming trap with traps enabled, one that is not arming without, a new PSD that retains the map, and one that loads it. -/
theorem witness_TrapEntryInPsdMode :
    (Tests.psd.cfg.role = .cpu ∧ Tests.psd.mode = .psd ∧ Trap.arming .undefined = true ∧ Tests.psd.trapsEnabled = true ∧
      Tests.Entry (Tests.block Tests.psd 0x194 0x80002000 0) (Trap.vector .undefined) 0x80002000 0) ∧
    (Trap.arming .arithmetic = false ∧
      Tests.Entry (Tests.block { Tests.psd with trapsEnabled := false } 0x1A4 0x80002000 0x40010000) (Trap.vector .arithmetic) 0x80002000 0x40010000) ∧
    (let s := Tests.process (Tests.block Tests.psd 0x194 0x80002000 0x40000008)
     s.MemoryInv ∧ s.Alone ∧ s.cfg.role = .cpu ∧ s.mode = .psd ∧ s.trapsEnabled = true ∧ s.realRead (Trap.vector .undefined) = .ok 0xA00 ∧
      s.BlockAt ((0xA00 : Word).extractLsb' 0 24) 0x80002000 0x40000008 ∧
      s.EntryMap s ((0xA00 : Word).extractLsb' 0 24) (((s.status ||| Trap.statusBits .psd .undefined) &&& 0xFFFFFF1E) ||| s.liveBits)
        0x40000008 (mapOf [0x8000, 0xC003])) :=
  ⟨⟨rfl, rfl, rfl, rfl, Tests.entry_of (by decide)⟩, ⟨rfl, Tests.entry_of (by decide)⟩, ⟨by decide, by decide⟩, rfl, rfl, rfl, rfl,
    by decide, ⟨by decide, by decide, by decide, by decide, by decide⟩,
    Tests.newMap_of (by decide), Or.inr (by decide)⟩

theorem witness_TrapHaltWhileNotEnabled :
    let s : State := { Tests.psd with trapsEnabled := false }
    s.MemoryInv ∧ s.Alone ∧ s.cfg.role = .cpu ∧ s.mode = .psd ∧ Trap.arming .privilege = true ∧ s.trapsEnabled = false ∧
    s.present 0x530 20 = true :=
  ⟨⟨rfl, rfl⟩, rfl, rfl, rfl, rfl, rfl, by decide⟩

/-- Dropped: no level enabled. Entered: the trap's level enabled and nothing busy. -/
theorem witness_TrapsInPswMode :
    let s : State := Tests.words { Tests.psw with enabled := 1#128 <<< 0x25 } [(0x194, 0xA00), (0xA04, 0x80002000)]
    Tests.psw.cfg.role = .cpu ∧ Tests.psw.mode = .psw ∧ Tests.psw.levelEnabled 0x25 = false ∧
    s.levelEnabled 0x25 = true ∧ (0x25 : Level) ∈ s.cfg.levels ∧ (∀ k, k ≤ (0x25 : Level).toNat → s.active.getLsbD k = false) ∧
    (∀ k, k < (0x25 : Level).toNat → s.requesting.getLsbD k = false) ∧ s.MemoryInv ∧ s.Alone ∧ s.realRead (levelVector 0x25) = .ok 0xA00 ∧
    s.present ((0xA00 : Word).extractLsb' 0 24) 4 = true ∧ s.realRead ((0xA00 : Word).extractLsb' 0 24 + 4) = .ok 0x80002000 :=
  ⟨rfl, rfl, by decide, by decide, by decide, by decide, by decide, ⟨by decide, by decide⟩, rfl, rfl, by decide, rfl⟩

theorem witness_IpuErrorTrap : Tests.ipu.cfg.role = .ipu ∧ Tests.ipu.mode = .psd ∧
    Tests.Entry (Tests.block Tests.ipu 0x2EC 0x80002000 0) 0x2EC 0x80002000 0 ∧
    (let s := Tests.process (Tests.block Tests.ipu 0x2EC 0x80002000 0x40000008)
     s.MemoryInv ∧ s.Alone ∧ s.cfg.role = .ipu ∧ s.mode = .psd ∧ s.realRead 0x2EC = .ok 0xA00 ∧
      s.BlockAt ((0xA00 : Word).extractLsb' 0 24) 0x80002000 0x40000008 ∧
      s.EntryMap s ((0xA00 : Word).extractLsb' 0 24) (((s.status ||| Trap.ipuStatusBits .privilege) &&& 0xFFFFFF1E) ||| s.liveBits)
        0x40000008 (mapOf [0x8000, 0xC003])) :=
  ⟨rfl, rfl, Tests.entry_of (by decide), ⟨by decide, by decide⟩, rfl, rfl, rfl, by decide,
    ⟨by decide, by decide, by decide, by decide, by decide⟩, Tests.newMap_of (by decide),
    Or.inr (by decide)⟩

theorem witness_PendingTrapsEntered :
    let timeout : State := Tests.block { Tests.psd with pendingTimeout := true } 0x0E4 0x80002000 0
    let loads : State := Tests.process (Tests.block { Tests.psd with pendingArith := true } 0x1A4 0x80002000 0x40000008)
    let arith : State := Tests.block { Tests.psd with pendingArith := true } 0x1A4 0x80002000 0
    (timeout.inputs = [] ∧ timeout.cfg.role = .cpu ∧ timeout.mode = .psd ∧ timeout.runState = .run ∧ timeout.pendingPower = false ∧
      timeout.pendingTimeout = true ∧ Tests.Entry timeout 0x0E4 0x80002000 0) ∧
    (arith.inputs = [] ∧ arith.cfg.role = .cpu ∧ arith.mode = .psd ∧ arith.runState = .run ∧ arith.pendingPower = false ∧
      arith.pendingTimeout = false ∧ arith.pendingArith = true ∧ Tests.Entry arith 0x1A4 0x80002000 0) ∧
    (loads.MemoryInv ∧ loads.Alone ∧ loads.inputs = [] ∧ loads.cfg.role = .cpu ∧ loads.mode = .psd ∧ loads.runState = .run ∧ loads.pendingPower = false ∧
      loads.pendingTimeout = false ∧ loads.pendingArith = true ∧ loads.realRead 0x1A4 = .ok 0xA00 ∧
      loads.BlockAt ((0xA00 : Word).extractLsb' 0 24) 0x80002000 0x40000008 ∧
      loads.EntryMap loads ((0xA00 : Word).extractLsb' 0 24) ((loads.status &&& 0xFFFFFF1E) ||| loads.liveBits) 0x40000008
        (mapOf [0x8000, 0xC003])) :=
  ⟨⟨rfl, rfl, rfl, rfl, rfl, rfl, Tests.entry_of (by decide)⟩, ⟨rfl, rfl, rfl, rfl, rfl, rfl, rfl, Tests.entry_of (by decide)⟩,
    ⟨by decide, by decide⟩, rfl, rfl, rfl, rfl, rfl, rfl, rfl, rfl, by decide, ⟨by decide, by decide, by decide, by decide, by decide⟩,
    Tests.newMap_of (by decide), Or.inr (by decide)⟩

/-- What the statement on interrupt entries asks of the state. -/
def Tests.Asks (s : State) (l : Level) : Prop :=
  s.Alone ∧ s.Quiet ∧ s.cfg.role = .cpu ∧ s.mode = .psd ∧ (s.runState = .run ∨ s.runState = .wait) ∧ s.nonint = false ∧ s.blocked = false ∧
    s.eligible = some l

/-- A word that neither the channel's two status words nor word 6 of the block touch reads as before. -/
theorem Tests.reads_second {s : State} {x a icb : Addr} {v1 v2 v3 w : Word} (hm : Memory.wf s.mem = true)
    (ha : 8 ≤ x.toNat) (h1 : a.toNat + 8 ≤ x.toNat ∨ x.toNat + 4 ≤ a.toNat) (hi : icb.toNat + 24 ≤ 2 ^ 24)
    (h2 : x.toNat + 4 ≤ icb.toNat + 20) (h : s.realRead x = .ok w) :
    (((s.realWriteOrLose a v1).realWriteOrLose (a + 4) v2).poke32 (icb + 20) v3).realRead x = .ok w := by
  have wf {s : State} {a : Addr} {v : Word} (hm : Memory.wf s.mem = true) : Memory.wf (s.realWriteOrLose a v).mem = true := by
    unfold State.realWriteOrLose; split
    · exact State.poke32_wf hm
    · exact hm
  refine State.realRead_poke32_ne (wf (wf hm)) (fun j k hj hk => ?_)
    (State.realRead_realWriteOrLose_ne (wf hm) (fun j k hj hk => ?_)
      (State.realRead_realWriteOrLose_ne hm (fun j k hj hk => ?_) h)) <;> bv_omega

/-- Bits 48-49 of the new PSD word 2 are 01 and 00, in the Run and in the Wait state; a new PSD that loads the map; and a level
of a Class F channel, whose block is the one of two that the address the channel chooses does not meet. -/
theorem witness_InterruptEntryInPsdMode :
    let asks (r : RunState) (n2 : Nat) : State :=
      Tests.block { Tests.psd with enabled := 1#128 <<< 0x13, requesting := 1#128 <<< 0x13, runState := r } 0xEC 0x80002000 n2
    (Tests.Asks (asks .run 0x4000) 0x13 ∧ Tests.Entry (asks .run 0x4000) (levelVector 0x13) 0x80002000 0x4000 ∧
      Config.classFLevel (asks .run 0x4000).cfg 0x13 = none) ∧
    (Tests.Asks (asks .wait 0) 0x13 ∧ Tests.Entry (asks .wait 0) (levelVector 0x13) 0x80002000 0) ∧
    (let s := Tests.process (asks .run 0x40000008)
     s.MemoryInv ∧ Tests.Asks s 0x13 ∧ s.realRead (levelVector 0x13) = .ok 0xA00 ∧ s.present 0xA00 4 = true ∧
      s.present (0xA00 + 4) 4 = true ∧ s.realRead 0xA08 = .ok 0x80002000 ∧ s.realRead 0xA0C = .ok 0x40000008 ∧
      (s.storedPsd s 0xA00).NewMap 0x40000008 (mapOf [0x8000, 0xC003])) ∧
    ∃ v : Word,
      let ch : Channel := ⟨0x78, .classF, 0x15⟩
      let s := Tests.words
        { Tests.psd with cfg := { Config.default with channels := [ch] }, enabled := 1#128 <<< 0x15, requesting := 1#128 <<< 0x15 }
        [(0x144, v.toNat), (0xA08, 0x80002000), (0x2A08, 0x80002000)]
      let icb : Addr := v.extractLsb' 0 24
      let st := Config.channelStatus s.freeIx ch.device
      let second := (((s.storedPsd s icb).realWriteOrLose st.addr (st.word1 &&& 0xFFFFFFFC)).realWriteOrLose (st.addr + 4)
        st.word2).poke32 (icb + 20) (BitVec.ofNat 32 st.addr.toNat)
      s.MemoryInv ∧ Tests.Asks s 0x15 ∧ Config.classFLevel s.cfg 0x15 = some ch ∧ s.realRead (levelVector 0x15) = .ok v ∧
      s.present icb 4 = true ∧ s.present (icb + 4) 4 = true ∧ s.present (icb + 20) 4 = true ∧
      second.realRead (icb + 8) = .ok 0x80002000 ∧ second.realRead (icb + 12) = .ok 0 ∧ second.NewMap 0 second.map := by
  refine ⟨⟨⟨rfl, ⟨rfl, rfl, rfl, rfl, rfl, rfl, rfl⟩, rfl, rfl, Or.inl rfl, rfl, rfl, by decide⟩, Tests.entry_of (by decide), by decide⟩,
    ⟨⟨rfl, ⟨rfl, rfl, rfl, rfl, rfl, rfl, rfl⟩, rfl, rfl, Or.inr rfl, rfl, rfl, by decide⟩, Tests.entry_of (by decide)⟩,
    ⟨⟨by decide, by decide⟩, ⟨rfl, ⟨rfl, rfl, rfl, rfl, rfl, rfl, rfl⟩, rfl, rfl, Or.inl rfl, rfl, rfl, by decide⟩, by decide, by decide,
      by decide, by decide, by decide, Tests.newMap_of (by decide)⟩, ?_⟩
  by_cases ha : 0xA00 ≤ (Config.channelStatus 0 0x78).addr.toNat ∧ (Config.channelStatus 0 0x78).addr.toNat < 0xA10
  · exact ⟨0x2A00, ⟨by decide, by decide⟩, ⟨rfl, ⟨rfl, rfl, rfl, rfl, rfl, rfl, rfl⟩, rfl, rfl, Or.inl rfl, rfl, rfl, by decide⟩, by decide,
      by decide, by decide, by decide, by decide,
      Tests.reads_second (by decide) (by decide) (Or.inl (by have := ha.2; exact Nat.le_trans (Nat.add_le_add_right ha.2.le 8) (by decide)))
        (by decide) (by decide) (by decide),
      Tests.reads_second (by decide) (by decide) (Or.inl (Nat.le_trans (Nat.add_le_add_right ha.2.le 8) (by decide)))
        (by decide) (by decide) (by decide), Or.inl ⟨Or.inl (by decide), rfl⟩⟩
  · have hb : (Config.channelStatus 0 0x78).addr.toNat + 8 ≤ 0xA08 ∨ 0xA10 ≤ (Config.channelStatus 0 0x78).addr.toNat := by omega
    exact ⟨0xA00, ⟨by decide, by decide⟩, ⟨rfl, ⟨rfl, rfl, rfl, rfl, rfl, rfl, rfl⟩, rfl, rfl, Or.inl rfl, rfl, rfl, by decide⟩, by decide,
      by decide, by decide, by decide, by decide,
      Tests.reads_second (by decide) (by decide) (hb.imp_right fun h => Nat.le_trans (by decide) h) (by decide) (by decide) (by decide),
      Tests.reads_second (by decide) (by decide) (hb.imp_left fun h => Nat.le_trans h (by decide)) (by decide) (by decide)
        (by decide), Or.inl ⟨Or.inl (by decide), rfl⟩⟩

theorem witness_InterruptEntryInPswMode :
    let s : State := Tests.words { Tests.psw with enabled := 1#128 <<< 0x13, requesting := 1#128 <<< 0x13 } [(0xEC, 0xA00), (0xA04, 0x80002000)]
    s.MemoryInv ∧ s.Alone ∧ s.Quiet ∧ s.cfg.role = .cpu ∧ s.mode = .psw ∧ s.runState = .run ∧ s.nonint = false ∧ s.eligible = some 0x13 ∧
    s.realRead (levelVector 0x13) = .ok 0xA00 ∧ s.present ((0xA00 : Word).extractLsb' 0 24) 4 = true ∧
    s.realRead ((0xA00 : Word).extractLsb' 0 24 + 4) = .ok 0x80002000 :=
  ⟨⟨by decide, by decide⟩, rfl, ⟨rfl, rfl, rfl, rfl, rfl, rfl, rfl⟩, rfl, rfl, rfl, rfl, by decide, rfl, by decide, rfl⟩

theorem witness_SystemResetKey :
    let s : State := { Tests.psd with inputs := [.systemResetKey], runState := .halt }
    s.inputs = [.systemResetKey] ∧ s.cfg.role = .cpu ∧ s.runState = .halt ∧ s.panel.locked = false ∧ s.cfg.spadMpl ≠ 0x91 := by decide

/-- Operands that can be read and that cannot; and a doubleword, each word written by a bus agent before it is read. -/
theorem witness_LoadsComplete : Tests.ReadsAll ∧
    (∃ t, Tests.Faults Tests.beyond .read (MemRef.ofByte ⟨1, false, 0⟩).word false t) ∧
    (∃ t, Tests.Faults { Tests.psd with parityBad := [0x7FFF8] } .read (MemRef.ofDouble ⟨0, false, 0x1FFFE⟩).word true t) ∧
    (let s : State := { Tests.psd with bus := [[(0x7FFFC, 1)], [(0x7FFF8, 2), (0x7FFFC, 3)]] }
     let first : State := State.busWrites { s with bus := [[(0x7FFF8, 2), (0x7FFFC, 3)]] } [(0x7FFFC, 1)]
     let second : State := State.busWrites { first with bus := [] } [(0x7FFF8, 2), (0x7FFFC, 3)]
     s.memLock = false ∧ (∃ e, s.effective (MemRef.ofDouble ⟨0, false, 0x1FFFE⟩).word = .ok e s ∧ e.operand = .double 0x7FFF8) ∧
      first.ReadsWord (0x7FFF8 + 4) 0x01000000 ∧ second.ReadsWord 0x7FFF8 0x02000000) :=
  ⟨Tests.readsAll, ⟨_, Tests.readFaults.1⟩, ⟨_, Tests.readFaults.2.2.2.2.1⟩, rfl, ⟨_, rfl, by decide⟩,
    ⟨0x7FFFC, Tests.reaches_of (by decide), by decide⟩, 0x7FFF8, Tests.reaches_of (by decide), by decide⟩

/-- LEA, LA and LEAR: an effective address in each addressing mode and control mode; LEAR's translates. -/
theorem witness_ImmediateAndAddressLoadsComplete :
    let m : MemRef 20 := ⟨0, false, 0xFFFFF⟩
    let ext : State := { Tests.psd with ext := true }
    (∃ e s1, Tests.psd.effective (leaWord 7 m) = .ok e s1) ∧ (∃ e s1, ext.effective (leaWord 7 m) = .ok e s1) ∧
    (∃ e s1, Tests.psw.effective (leaWord 7 m) = .ok e s1) ∧
    (∃ e s1 pa, Tests.psd.effective m.word = .ok e s1 ∧ Tests.psd.translate e.ea = some pa) ∧
    (∃ e s1 pa, ext.effective m.word = .ok e s1 ∧ ext.translate e.ea = some pa) ∧
    Tests.psd.mode = .psd ∧ Tests.psd.ext = false ∧ ext.ext = true ∧ Tests.psw.mode = .psw ∧ Tests.psd.priv = true ∧
    Tests.psd.bus = [] ∧ ext.bus = [] ∧ Tests.psw.bus = [] :=
  ⟨⟨_, _, rfl⟩, ⟨_, _, rfl⟩, ⟨_, _, rfl⟩, ⟨_, _, _, rfl, rfl⟩, ⟨_, _, _, rfl, rfl⟩, by decide⟩

/-- Register 0 with eight words, and register 7 with one; all in the last block of memory. -/
theorem witness_RegisterFilesComplete : Tests.psd.Alone ∧
    (∃ e s1, Tests.psd.effective (MemRef.word ⟨0, false, 0x7FFE0⟩) = .ok e s1 ∧
      (∀ k, k < 8 → Tests.psd.ReadsWord (fileAddress e.ea k) 0) ∧
      ∀ k, k < 8 → Tests.psd.locate .write (fileAddress e.ea k) 4 = .ok (fileAddress e.ea k)) ∧
    (∃ e s1, Tests.psd.effective (MemRef.word ⟨0, false, 0x7FFFC⟩) = .ok e s1 ∧
      (∀ k, k < 1 → Tests.psd.ReadsWord (fileAddress e.ea k) 0) ∧
      ∀ k, k < 1 → Tests.psd.locate .write (fileAddress e.ea k) 4 = .ok (fileAddress e.ea k)) := by
  have h8 : ∀ k : Fin 8, Tests.reaches Tests.psd .read (fileAddress 0x7FFE0 k) 4 = true ∧
      Tests.reaches Tests.psd .write (fileAddress 0x7FFE0 k) 4 = true ∧ Memory.read32 Tests.psd.mem (fileAddress 0x7FFE0 k) = 0 := by decide
  have h1 : ∀ k : Fin 1, Tests.reaches Tests.psd .read (fileAddress 0x7FFFC k) 4 = true ∧
      Tests.reaches Tests.psd .write (fileAddress 0x7FFFC k) 4 = true ∧ Memory.read32 Tests.psd.mem (fileAddress 0x7FFFC k) = 0 := by decide
  exact ⟨rfl, ⟨_, _, rfl, fun k h => ⟨_, Tests.reaches_of (h8 ⟨k, h⟩).1, (h8 ⟨k, h⟩).2.2.symm⟩, fun k h => Tests.reaches_of (h8 ⟨k, h⟩).2.1⟩,
    ⟨_, _, rfl, fun k h => ⟨_, Tests.reaches_of (h1 ⟨k, h⟩).1, (h1 ⟨k, h⟩).2.2.symm⟩, fun k h => Tests.reaches_of (h1 ⟨k, h⟩).2.1⟩⟩

/-- Operands that can be written and that cannot: a protected page, and a doubleword whose second word is absent. -/
theorem witness_StoresComplete : Tests.WritesAll ∧
    Tests.Faults Tests.protect .write (MemRef.ofWord ⟨0, false, 0x1FFFF⟩).word false .privilege ∧
    (∃ t, Tests.Faults (Tests.gap [⟨0, 0x7FFF8⟩, ⟨0x7FFFC, 4⟩]) .write (MemRef.ofDouble ⟨0, false, 0x1FFFE⟩).word true t) ∧
    ∃ t s1, Tests.unmapped.effective (MemRef.ofWord ⟨0, true, 0⟩).word = .trap t s1 :=
  ⟨Tests.writesAll, Tests.writeFaults.2.2.1, ⟨_, Tests.writeFaults.2.2.2.2.1⟩, Tests.writeFaults.2.2.2.2.2⟩

/-- A halfword of each code, with every register field filled. -/
theorem witness_RegisterTransfersComplete : ∀ bits ∈ [0x2C00, 0x2C08, 0x2C04, 0x2C0C, 0x2C03, 0x2C0B, 0x2C05, 0x2C0D],
    (BitVec.ofNat 16 (bits + 0x3F0) : Half) &&& 0xFC0F = BitVec.ofNat 16 bits := by decide

theorem witness_SpecialTransfersComplete :
    let s := Tests.regs Tests.psd [(1, 0), (2, 0xFF0000)]
    s.priv = true ∧ (s.reg 1).toNat / 0x10000 % 256 = 0 ∧ (s.reg 2).toNat / 0x10000 % 256 = 255 := by decide

/-- TMAPR of the first and last pair; LMAP of a process of two segments, of 32 pages and of none, of one that borrows, and of one
with 33 pages; and a mapped processor. -/
theorem witness_MapInstructionsComplete :
    let s := Tests.words { Tests.regs Tests.psd [(1, 0x4000), (2, 30)] with spad := Tests.psd.spad.set 0xF3 0x2000 }
      [(0x4004, 0x40080008), (0x2000, 0x01002108), (0x2008, 0x02002100), (0x200C, 0x82002110), (0x2010, 0x01002118),
        (0x2100, 0x20002200), (0x2108, 0x01002300), (0x2110, 0x02002302), (0x2118, 0x21002400), (0x2300, 0x8000C003), (0x2304, 0x80010000)]
    s.Alone ∧ s.mode = .psd ∧ s.priv = true ∧ s.mapped = false ∧ (s.reg 1).toNat / 2 % 16 = 0 ∧ 2 * 0 + 1 < 32 ∧
    (s.reg 2).toNat / 2 % 16 = 15 ∧ 2 * 15 + 1 < 32 ∧
    s.realRead ((s.reg 1).extractLsb' 0 24 + 4) = .ok 0x40080008 ∧
    s.ProcessPages 0x40080008 (List.replicate 32 0 ++ []) ∧
    (s.ProcessPages 0x4000000C [0x8000, 0xC003, 0x8001] ∧ ([0x8000, 0xC003, 0x8001] : List Half).length ≤ 32) ∧
    (s.ProcessPages 0x40000010 (List.replicate 33 0) ∧ 32 < (List.replicate 33 (0 : Half)).length) ∧
    { s with mapped := true }.mapped = true :=
  ⟨rfl, rfl, rfl, rfl, by decide, by decide, by decide, by decide, by decide,
    Tests.pages_of [(0x20002200, List.replicate 32 0), (0, [])] (mscd := 0x02002100) (by decide) (by decide) (by decide) (by decide),
    ⟨⟨0x82002110, by decide, [[0xC003, 0x8001]],
      Tests.segments_of [(0x02002302, [0xC003, 0x8001])] (by decide), by
        rw [if_neg (by decide)]
        exact ⟨0x01002108, [0x8000], by decide, ⟨0x01002300, by decide⟩, by decide, rfl⟩⟩, by decide⟩,
    ⟨Tests.pages_of [(0x21002400, List.replicate 33 0)] (mscd := 0x01002118) (by decide) (by decide) (by decide) (by decide), by decide⟩,
    rfl⟩

/-- The last WCS word of one board, and the first address beyond it; WCS absent. -/
theorem witness_WcsInstructionsComplete :
    let s := Tests.regs Tests.wcs [(1, 0x7FFF8), (2, 2047), (3, 2048)]
    s.Alone ∧ s.priv = true ∧ s.ext = false ∧ (s.reg 2).toNat < s.cfg.wcsBoards.words ∧ s.cfg.wcsBoards.words ≤ (s.reg 3).toNat ∧ s.MemoryInv ∧
    s.ReadsWord (s.wcsOperand (s.reg 1)) 0 ∧ s.ReadsWord (s.wcsOperandNext (s.reg 1)) 0 ∧
    s.locate .write (s.wcsOperand (s.reg 1)) 4 = .ok 0x7FFF8 ∧ s.locate .write (s.wcsOperandNext (s.reg 1)) 4 = .ok 0x7FFFC ∧
    s.cfg.wcsBoards ≠ .none ∧ (∃ e s1, s.effective (MemRef.word ⟨0, false, 0x3F⟩) = .ok e s1) ∧ Tests.psd.cfg.wcsBoards = .none :=
  ⟨rfl, rfl, rfl, by decide, by decide, ⟨rfl, rfl⟩, ⟨0x7FFF8, Tests.reaches_of (by decide), by decide⟩,
    ⟨0x7FFFC, Tests.reaches_of (by decide), by decide⟩, Tests.reaches_of (by decide), Tests.reaches_of (by decide), by decide,
    ⟨_, _, rfl⟩, rfl⟩

theorem witness_StatusBitInstructionsComplete : Tests.psd.mode = .psd ∧ Tests.psw.mode = .psw := ⟨rfl, rfl⟩

/-- Branches direct and indirect; every condition met and not met by some code; a count that reaches zero and one that does not. -/
theorem witness_BranchesComplete : Tests.psd.Alone ∧
    (∃ e s1, Tests.psd.effective (MemRef.word ⟨0, false, 0x7FFFE⟩) = .ok e s1) ∧
    (∃ e s1, Tests.psd.effective (MemRef.word ⟨0, true, 0x7FFFC⟩) = .ok e s1) ∧
    (∀ n : Nat, n ∈ [1, 2, 3, 4] → (0xF : BitVec 4).getLsbD (4 - n) = true ∧ (0 : BitVec 4).getLsbD (4 - n) = false) ∧
    (Tests.regs Tests.psd [(4, 0x8000)]).reg 4 &&& BitVec.ofNat 32 (2 ^ (15 - Tests.psd.cc.toNat)) ≠ 0 ∧
    Tests.psd.reg 4 &&& BitVec.ofNat 32 (2 ^ (15 - Tests.psd.cc.toNat)) = 0 ∧
    (((Tests.regs Tests.psd [(1, 0xFFFFFFFF)]).reg 1).toNat + 1) % 2 ^ 32 = 0 ∧
    (((Tests.regs Tests.psd [(1, 0xFFFFFFF8)]).reg 1).toNat + 8) % 2 ^ 32 = 0 ∧ ((Tests.psd.reg 1).toNat + 8) % 2 ^ 32 ≠ 0 ∧
    (∃ e s1, { Tests.psd.setReg 1 8 with noHalt := true }.effective (MemRef.word ⟨0, false, 0x7FFFE⟩) = .ok e s1) :=
  ⟨rfl, ⟨_, _, rfl⟩, ⟨_, _, rfl⟩, by decide, by decide, by decide, by decide, by decide, by decide, ⟨_, _, rfl⟩⟩

theorem witness_ComparesComplete : Tests.ReadsAll := Tests.readsAll

theorem witness_LogicalsComplete : Tests.ReadsAll := Tests.readsAll

/-- A halfword of each code, with every field and the ignored bit filled but bit 9. -/
theorem witness_ShiftsComplete : ∀ bits ∈ [0x6C40, 0x7040, 0x7440, 0x7840, 0x7C40, 0x6C00, 0x7000, 0x7400, 0x7800, 0x7C00],
    (BitVec.ofNat 16 (bits + 0x3BF) : Half) &&& 0xFC40 = BitVec.ofNat 16 bits := by decide

theorem witness_NormalizesComplete :
    (∀ bits ∈ [0x6000, 0x6400, 0x6800], (BitVec.ofNat 16 (bits + 0x3F0) : Half) &&& 0xFC0F = BitVec.ofNat 16 bits) ∧
    Tests.psd.reg 1 = 0 ∧ (Tests.regs Tests.psd [(1, 1)]).reg 1 ≠ 0 ∧ (Tests.psd.reg 0 ++ Tests.psd.reg 1 : Double) = 0 ∧
    ((Tests.regs Tests.psd [(1, 1)]).reg 0 ++ (Tests.regs Tests.psd [(1, 1)]).reg 1 : Double) ≠ 0 := by decide

/-- The last byte, by its F bit, and the same address without it; a byte that cannot be read, one that cannot be written; and a
bus agent's write before SBM. -/
theorem witness_BitInstructionsComplete : Tests.psd.Alone ∧
    (∃ e s1, Tests.psd.effective (MemRef.word ⟨0, false, 0xFFFFF⟩) = .ok e s1 ∧ (e.ef && decide (e.ea = 0x7FFFF)) = true) ∧
    Tests.psd.locate .read 0x7FFFF 1 = .ok 0x7FFFF ∧ Tests.psd.Modifies 0x7FFFF 1 0x7FFFF ∧
    Tests.psd.Modifies (BitVec.ofNat 24 ((0x7FFFF : Addr).toNat / 4 * 4)) 4 0x7FFFC ∧
    (∃ e s1, Tests.psd.effective (MemRef.word ⟨0, false, 0x7FFFF⟩) = .ok e s1 ∧ (!e.ef) = true) ∧
    Tests.FaultsAt Tests.parity 0x7FFFF 1 ∧ Tests.FaultsAt Tests.parity 0x7FFFC 4 ∧ Tests.parity.locate .read 0x7FFFF 1 = .error (.memoryParity false) ∧
    Tests.FaultsAt Tests.protect 0x7FFFF 1 ∧ Tests.FaultsAt Tests.protect 0x7FFFC 4 ∧
    (let s : State := { Tests.psd with bus := [[(0x7FFFF, 1)]] }
     let found : State := State.busWrites { s with bus := [] } [(0x7FFFF, 1)]
     s.memLock = false ∧ (∃ e, s.effective (MemRef.word ⟨0, false, 0xFFFFF⟩) = .ok e s ∧ e.ef = true ∧ e.ea = 0x7FFFF) ∧
      found.Modifies 0x7FFFF 1 0x7FFFF ∧ Memory.read found.mem 0x7FFFF = 1) :=
  ⟨rfl, Tests.eff_of (by decide), Tests.modifies.1.1, Tests.modifies.1, Tests.modifies.2.2.1, Tests.eff_of (by decide),
    ⟨rfl, _, Or.inl rfl⟩, ⟨rfl, _, Or.inl rfl⟩, rfl, ⟨rfl, _, Or.inr ⟨⟨_, rfl⟩, rfl⟩⟩, ⟨rfl, _, Or.inr ⟨⟨_, rfl⟩, rfl⟩⟩,
    rfl, ⟨_, rfl, by decide, by decide⟩, ⟨Tests.reaches_of (by decide), Tests.reaches_of (by decide)⟩, by decide⟩

theorem witness_AddAndSubtractFromMemoryComplete : Tests.ReadsAll := Tests.readsAll

theorem witness_AddToMemoryComplete : Tests.ReadsAll ∧ Tests.psd.Modifies 0x7FFFF 1 0x7FFFF ∧ Tests.psd.Modifies 0x7FFFE 2 0x7FFFE ∧
    Tests.psd.Modifies 0x7FFFC 4 0x7FFFC ∧ Tests.psd.Modifies 0x7FFF8 4 0x7FFF8 ∧
    Tests.FaultsAt Tests.protect 0x7FFFF 1 ∧ Tests.FaultsAt Tests.protect 0x7FFFE 2 ∧ Tests.FaultsAt Tests.parity 0x7FFFC 4 ∧
    (∃ t, Tests.Faults Tests.parity .read (MemRef.ofDouble ⟨0, false, 0x1FFFE⟩).word false t) ∧
    (∃ t, Tests.Faults { Tests.psd with parityBad := [0x7FFF8] } .read (MemRef.ofDouble ⟨0, false, 0x1FFFE⟩).word true t) ∧
    (Tests.protect.locate .read 0x7FFFC 4 = .ok 0x7FFFC ∧ Tests.protect.locate .read 0x7FFF8 4 = .ok 0x7FFF8 ∧
      Tests.protect.locate .write 0x7FFFC 4 = .error .privilege) ∧
    (let s : State := { Tests.psd with bus := [[(0x7FFFC, 1)], [(0x7FFF8, 2), (0x7FFFC, 3)]] }
     let first : State := State.busWrites { s with bus := [[(0x7FFF8, 2), (0x7FFFC, 3)]] } [(0x7FFFC, 1)]
     let second : State := State.busWrites { first with bus := [] } [(0x7FFF8, 2), (0x7FFFC, 3)]
     s.MemoryInv ∧ s.memLock = false ∧ (∃ e, s.effective (MemRef.ofDouble ⟨0, false, 0x1FFFE⟩).word = .ok e s ∧ e.operand = .double 0x7FFF8) ∧
      first.Modifies (0x7FFF8 + 4) 4 0x7FFFC ∧ second.Modifies 0x7FFF8 4 0x7FFF8) :=
  ⟨Tests.readsAll, Tests.modifies.1, Tests.modifies.2.1, Tests.modifies.2.2.1, Tests.modifies.2.2.2, ⟨rfl, _, Or.inr ⟨⟨_, rfl⟩, rfl⟩⟩,
    ⟨rfl, _, Or.inr ⟨⟨_, rfl⟩, rfl⟩⟩, ⟨rfl, _, Or.inl rfl⟩, ⟨_, Tests.readFaults.2.2.2.1⟩, ⟨_, Tests.readFaults.2.2.2.2.1⟩, ⟨rfl, rfl, rfl⟩,
    ⟨by decide, by decide⟩, rfl, ⟨_, rfl, by decide⟩, ⟨Tests.reaches_of (by decide), Tests.reaches_of (by decide)⟩,
    ⟨Tests.reaches_of (by decide), Tests.reaches_of (by decide)⟩⟩

theorem witness_MultiplyAndDivideComplete : Tests.ReadsAll := Tests.readsAll

theorem witness_RegisterArithmeticComplete :
    (∀ bits ∈ [0x3800, 0x3808, 0x3C00, 0x3C08, 0x0005, 0x0004], (BitVec.ofNat 16 (bits + 0x3F0) : Half) &&& 0xFC0F = BitVec.ofNat 16 bits) ∧
    (∀ bits ∈ [0xC8010000, 0xC8020000], (BitVec.ofNat 32 (bits + 0x3F8FFFF) : Word) &&& 0xFC070000 = BitVec.ofNat 32 bits) := by decide

/-- The last word and the last doubleword, by their C bits; and an odd address. -/
theorem witness_FloatingPointComplete : Tests.psd.Alone ∧
    (∃ e s1, Tests.psd.effective (MemRef.ofFixed true ⟨0, false, 0x7FFFC⟩).word = .ok e s1 ∧ decide (e.ea = 0x7FFFC ∧ e.ea.toNat % 4 = 0) = true) ∧
    (∃ v, Tests.psd.ReadsWord 0x7FFFC v) ∧
    (∃ e s1, Tests.psd.effective (MemRef.ofFixedDouble true ⟨0, false, 0x1FFFE⟩).word = .ok e s1 ∧
      decide (e.ea = 0x7FFFA ∧ e.ea.toNat % 4 = 2) = true) ∧
    (∃ v, Tests.psd.ReadsWord (BitVec.ofNat 24 ((0x7FFFA : Addr).toNat / 8 * 8)) v) ∧
    (∃ v, Tests.psd.ReadsWord (BitVec.ofNat 24 ((0x7FFFA : Addr).toNat / 8 * 8 + 4)) v) ∧
    (∃ e s1, Tests.psd.effective (MemRef.ofFixed true ⟨0, false, 0x7FFFF⟩).word = .ok e s1 ∧ decide (e.ea.toNat % 2 = 1) = true) :=
  ⟨rfl, Tests.eff_of (by decide), ⟨_, 0x7FFFC, Tests.reaches_of (by decide), rfl⟩, Tests.eff_of (by decide),
    ⟨_, 0x7FFF8, Tests.reaches_of (by decide), rfl⟩, ⟨_, 0x7FFFC, Tests.reaches_of (by decide), rfl⟩, Tests.eff_of (by decide)⟩

/-- 1 + 1 = 2, 1 - 1/2 = 1/2, 2 * 1/2 = 1, 1 / 2 = 1/2. -/
theorem witness_FloatingPointExactResults :
    fpNormalized (0x41100000 : Word) = true ∧ fpNormalized (0x41200000 : Word) = true ∧ fpNormalized (0x40800000 : Word) = true ∧
    fpExactly .add 0x41100000 0x41100000 0x41200000 ∧ fpExactly .sub 0x41100000 0x40800000 0x40800000 ∧
    fpExactly .mul 0x41200000 0x40800000 0x41100000 ∧ fpExactly .div 0x41100000 0x41200000 0x40800000 := by
  refine ⟨by decide, by decide, by decide, ?_, ?_, ?_, ?_⟩ <;> unfold fpExactly <;> decide

/-- LPSD and LPSDCM of the last doubleword; BRI direct, and indirect in either mode; a PSD that loads the map for LPSDCM and for
BRI. -/
theorem witness_PsdLoadsComplete :
    let at_ : Addr := BitVec.ofNat 24 (levelAddress Tests.psd.ext (0x7FFF8 : BitVec 20).toNat (Tests.psd.indexNumber 0) / 4 * 4 % 2 ^ 19)
    Tests.psd.Alone ∧ Tests.psw.Alone ∧ Tests.psd.priv = true ∧ Tests.psd.mode = .psd ∧ Tests.psd.cfg.role = .cpu ∧
    (∃ e s1, Tests.psd.effective (MemRef.word ⟨0, false, 0x7FFF8⟩) = .ok e s1 ∧ decide (e.ea = 0x7FFF8) = true) ∧
    Tests.psd.ReadsWord (doubleAddr 0x7FFF8) 0 ∧ Tests.psd.ReadsWord (doubleAddr 0x7FFF8 + 4) 0 ∧ keepsMap 0 ∧
    Tests.psd.ReadsWord at_ 0 ∧ Tests.psd.ReadsWord (Tests.psd.nextWord at_) 0 ∧
    Tests.psw.priv = true ∧ Tests.psw.mode = .psw ∧ Tests.psw.ReadsWord at_ 0 ∧
    (let s := Tests.process (Tests.words Tests.psd [(0x3000, 0x80002000), (0x3004, 0x40000008)])
     let at_ : Addr := BitVec.ofNat 24 (levelAddress s.ext (0x3000 : BitVec 20).toNat (s.indexNumber 0) / 4 * 4 % 2 ^ 19)
     s.Alone ∧ (∃ e s1, s.effective (MemRef.word ⟨0, false, 0x3000⟩) = .ok e s1 ∧ decide (e.ea = 0x3000) = true) ∧
      s.ReadsWord (doubleAddr 0x3000) 0x80002000 ∧ s.ReadsWord (doubleAddr 0x3000 + 4) 0x40000008 ∧
      s.ReadsWord at_ 0x80002000 ∧ s.ReadsWord (s.nextWord at_) 0x40000008 ∧ s.NewMap 0x40000008 (mapOf [0x8000, 0xC003])) :=
  ⟨rfl, rfl, rfl, rfl, rfl, Tests.eff_of (by decide), ⟨0x7FFF8, Tests.reaches_of (by decide), by decide⟩,
    ⟨0x7FFFC, Tests.reaches_of (by decide), by decide⟩, Or.inl (by decide), ⟨0x7FFF8, Tests.reaches_of (by decide), by decide⟩,
    ⟨0x7FFFC, Tests.reaches_of (by decide), by decide⟩, rfl, rfl, ⟨0x7FFF8, Tests.reaches_of (by decide), by decide⟩,
    rfl, Tests.eff_of (by decide), ⟨0x3000, Tests.reaches_of (by decide), by decide⟩, ⟨0x3004, Tests.reaches_of (by decide), by decide⟩,
    ⟨0x3000, Tests.reaches_of (by decide), by decide⟩, ⟨0x3004, Tests.reaches_of (by decide), by decide⟩, Tests.newMap_of (by decide)⟩

theorem witness_ControlInstructionsComplete :
    let blocked : State := { Tests.psd with blocked := true }
    let alone : State := { Tests.regs Tests.psd [(1, 0x1000)] with cfg := { Config.default with psdJumper := false } }
    Tests.psd.priv = true ∧ Tests.psd.cfg.role = .cpu ∧ ¬(Tests.psd.mode = .psd ∧ Tests.psd.blocked = true) ∧
    (blocked.mode = .psd ∧ blocked.blocked = true) ∧ (Tests.ipu.cfg.role = .ipu ∧ Tests.ipu.priv = true) ∧
    ((Tests.psd.reg 1).toNat / 2 ^ 12 % 2 = 1 → Tests.psd.cfg.psdJumper = true) ∧ Tests.psd.cfg.psdJumper = true ∧
    ((alone.reg 1).toNat / 2 ^ 12 % 2 = 1 ∧ alone.priv = true ∧ alone.cfg.psdJumper = false) := by decide

/-- A new PSD that keeps the map, and one that loads it. -/
theorem witness_SupervisorCallCompletes :
    let s (n2 : Nat) := Tests.process (Tests.words (Tests.block Tests.psd 0x63C 0x80002000 n2) [(0x180, 0x600)])
    let called (s : State) : Prop := s.cfg.role = .cpu ∧ s.mode = .psd ∧ s.realRead 0x180 = .ok 0x600
    let v : Addr := (0x600 : Word).extractLsb' 0 24 + BitVec.ofNat 24 (4 * (15 : BitVec 4).toNat)
    let icb : Addr := (0xA00 : Word).extractLsb' 0 24
    (called (s 0) ∧ Tests.Entry (s 0) v 0x80002000 0) ∧
    (called (s 0x40000008) ∧ (s 0x40000008).MemoryInv ∧ (s 0x40000008).Alone ∧ (s 0x40000008).realRead v = .ok 0xA00 ∧
      (s 0x40000008).BlockAt icb 0x80002000 0x40000008 ∧
      (s 0x40000008).EntryMap { s 0x40000008 with cc := 0 } icb (BitVec.ofNat 32 (0xFFF : BitVec 12).toNat) 0x40000008
        (mapOf [0x8000, 0xC003])) :=
  ⟨⟨⟨rfl, rfl, by decide⟩, Tests.entry_of (by decide)⟩, ⟨rfl, rfl, by decide⟩, ⟨by decide, by decide⟩, rfl, by decide,
    ⟨by decide, by decide, by decide, by decide, by decide⟩, Tests.newMap_of (by decide), Or.inr (by decide)⟩

/-- The same on an IPU, for each of its services. -/
theorem witness_IpuServiceTrapsComplete :
    let s (n2 : Nat) := Tests.process
      (Tests.words (Tests.block Tests.ipu 0x63C 0x80002000 n2) [(0x2E8, 0x600), (0x2F0, 0xA00), (0x2F4, 0xA00)])
    let called (s : State) : Prop := s.cfg.role = .ipu ∧ s.mode = .psd ∧ s.realRead 0x2E8 = .ok 0x600 ∧
      s.realRead 0x2F0 = .ok 0xA00 ∧ s.realRead 0x2F4 = .ok 0xA00
    let v : Addr := (0x600 : Word).extractLsb' 0 24 + BitVec.ofNat 24 (4 * (15 : BitVec 4).toNat)
    let icb : Addr := (0xA00 : Word).extractLsb' 0 24
    let fifth (s : State) : Word := (s.status &&& 0xFFFFFF1E) ||| s.liveBits
    (called (s 0) ∧ Tests.Entry (s 0) v 0x80002000 0) ∧
    (called (s 0x40000008) ∧ (s 0x40000008).MemoryInv ∧ (s 0x40000008).Alone ∧ (s 0x40000008).realRead v = .ok 0xA00 ∧
      (s 0x40000008).BlockAt icb 0x80002000 0x40000008 ∧
      (s 0x40000008).EntryMap { s 0x40000008 with cc := 0 } icb (fifth (s 0x40000008)) 0x40000008 (mapOf [0x8000, 0xC003]) ∧
      (s 0x40000008).EntryMap (s 0x40000008) icb (fifth (s 0x40000008)) 0x40000008 (mapOf [0x8000, 0xC003])) :=
  ⟨⟨⟨rfl, rfl, by decide, by decide, by decide⟩, Tests.entry_of (by decide)⟩, ⟨rfl, rfl, by decide, by decide, by decide⟩,
    ⟨by decide, by decide⟩, rfl, by decide, ⟨by decide, by decide, by decide, by decide, by decide⟩,
    ⟨Tests.newMap_of (by decide), Or.inr (by decide)⟩, Tests.newMap_of (by decide), Or.inr (by decide)⟩

/-- Targets in registers and memory: halfwords and words that decode, allowed and not, and some that do not decode. -/
theorem witness_ExecuteInstructionsComplete :
    let allowed (i : Instr) : Prop := isPsdOnly i = false ∧ (∀ d, i ≠ .rdsts d ∧ i ≠ .exr d ∧ i ≠ .exrr d) ∧ ∀ a, i ≠ .exm a
    let s := Tests.words (Tests.regs Tests.psd [(1, 0x00022C90), (2, 0xC9800004), (3, 0x080F080F), (5, 0x2C170000), (6, 0x00090009), (7, 0xC8070000)])
      [(0x7FFF0, 0x0002C980), (0x7FFF4, 0x0009080F), (0x7FFF8, 0xC9800004), (0x7FFFC, 0x00022C90)]
    let reaches (a : BitVec 19) (w : Word) : Prop :=
      (∃ e s1, s.effective (MemRef.ofFixed false ⟨0, false, a⟩).word = .ok e s1 ∧ decide (e.ea = BitVec.ofNat 24 a.toNat) = true) ∧
      s.ReadsWord (wordAddr (BitVec.ofNat 24 a.toNat)) w
    s.Alone ∧
    (isHalfword ((s.reg 1).extractLsb' 16 16) = true ∧ decode (.half ((s.reg 1).extractLsb' 16 16)) = some .nop ∧ allowed .nop ∧
      exec .nop { s with execDepth := true } = .next { s with execDepth := true }) ∧
    (isHalfword ((s.reg 6).extractLsb' 16 16) = true ∧ decode (.half ((s.reg 6).extractLsb' 16 16)) = some (.rdsts 0) ∧ ¬allowed (.rdsts 0)) ∧
    (isHalfword ((s.reg 3).extractLsb' 16 16) = true ∧ decode (.half ((s.reg 3).extractLsb' 16 16)) = none) ∧
    (isHalfword ((s.reg 2).extractLsb' 16 16) = false ∧ decode (.word (s.reg 2)) = some (.li 3 4) ∧ allowed (.li 3 4) ∧
      ∃ t, exec (.li 3 4) { s with execDepth := true } = .next t) ∧
    (isHalfword ((s.reg 7).extractLsb' 16 16) = false ∧ decode (.word (s.reg 7)) = some (.exr 0) ∧ ¬allowed (.exr 0)) ∧
    (isHalfword ((s.reg 5).extractLsb' 16 16) = false ∧ decode (.word (s.reg 5)) = none) ∧
    (isHalfword ((s.reg 1).extractLsb' 0 16) = true ∧ decode (.half ((s.reg 1).extractLsb' 0 16)) = some (.trr 1 1) ∧ allowed (.trr 1 1) ∧
      ∃ t, exec (.trr 1 1) { s with execDepth := true } = .next t) ∧
    (isHalfword ((s.reg 6).extractLsb' 0 16) = true ∧ decode (.half ((s.reg 6).extractLsb' 0 16)) = some (.rdsts 0)) ∧
    (isHalfword ((s.reg 3).extractLsb' 0 16) = true ∧ decode (.half ((s.reg 3).extractLsb' 0 16)) = none) ∧
    (reaches 0x7FFFE 0x00022C90 ∧ isHalfword ((0x00022C90 : Word).extractLsb' 0 16) = true ∧
      decode (.half ((0x00022C90 : Word).extractLsb' 0 16)) = some (.trr 1 1) ∧ allowed (.trr 1 1)) ∧
    (reaches 0x7FFFC 0x00022C90 ∧ isHalfword ((0x00022C90 : Word).extractLsb' 16 16) = true ∧
      decode (.half ((0x00022C90 : Word).extractLsb' 16 16)) = some .nop ∧ allowed .nop) ∧
    (reaches 0x7FFF8 0xC9800004 ∧ isHalfword ((0xC9800004 : Word).extractLsb' 16 16) = false ∧
      decode (.word 0xC9800004) = some (.li 3 4) ∧ allowed (.li 3 4)) ∧
    (reaches 0x7FFF4 0x0009080F ∧ isHalfword ((0x0009080F : Word).extractLsb' 16 16) = true ∧
      decode (.half ((0x0009080F : Word).extractLsb' 16 16)) = some (.rdsts 0) ∧ ¬allowed (.rdsts 0)) ∧
    (reaches 0x7FFF6 0x0009080F ∧ isHalfword ((0x0009080F : Word).extractLsb' 0 16) = true ∧
      decode (.half ((0x0009080F : Word).extractLsb' 0 16)) = none) ∧
    (reaches 0x7FFF2 0x0002C980 ∧ isHalfword ((0x0002C980 : Word).extractLsb' 0 16) = false) := by
  refine ⟨rfl, ⟨by decide, by decide, ⟨rfl, fun _ => ⟨nofun, nofun, nofun⟩, nofun⟩, rfl⟩, ⟨by decide, by decide, fun h => (h.2.1 0).1 rfl⟩,
    by decide, ⟨by decide, by decide, ⟨rfl, fun _ => ⟨nofun, nofun, nofun⟩, nofun⟩, _, rfl⟩, ⟨by decide, by decide, fun h => (h.2.1 0).2.1 rfl⟩,
    by decide, ⟨by decide, by decide, ⟨rfl, fun _ => ⟨nofun, nofun, nofun⟩, nofun⟩, _, rfl⟩, by decide, by decide,
    ⟨⟨Tests.eff_of (by decide), 0x7FFFC, Tests.reaches_of (by decide), by decide⟩, by decide, by decide, rfl, fun _ => ⟨nofun, nofun, nofun⟩, nofun⟩,
    ⟨⟨Tests.eff_of (by decide), 0x7FFFC, Tests.reaches_of (by decide), by decide⟩, by decide, by decide, rfl, fun _ => ⟨nofun, nofun, nofun⟩, nofun⟩,
    ⟨⟨Tests.eff_of (by decide), 0x7FFF8, Tests.reaches_of (by decide), by decide⟩, by decide, by decide, rfl, fun _ => ⟨nofun, nofun, nofun⟩, nofun⟩,
    ⟨⟨Tests.eff_of (by decide), 0x7FFF4, Tests.reaches_of (by decide), by decide⟩, by decide, by decide, fun h => (h.2.1 0).1 rfl⟩,
    ⟨⟨Tests.eff_of (by decide), 0x7FFF4, Tests.reaches_of (by decide), by decide⟩, by decide, by decide⟩,
    ⟨Tests.eff_of (by decide), 0x7FFF0, Tests.reaches_of (by decide), by decide⟩, by decide⟩

/-- Levels 2 and X'11', a level that is not configured, a Class F channel's; the configured levels X'13' and 0. -/
theorem witness_LevelInstructionsComplete :
    Tests.psd.cfg.role = .cpu ∧ Tests.psd.priv = true ∧
    (2 ≤ (2 : Level).toNat ∧ (0x11 : Level).toNat ≤ 0x11) ∧ (0x7F : Level) ∉ Tests.psd.cfg.levels ∧
    (∃ ch ∈ Tests.classF.cfg.channels, ch.cls = .classF ∧ ch.level = 0x15) ∧
    (¬(2 ≤ (0x13 : Level).toNat ∧ (0x13 : Level).toNat ≤ 0x11) ∧ (¬∃ ch ∈ Tests.psd.cfg.channels, ch.cls = .classF ∧ ch.level = 0x13) ∧
      (0x13 : Level) ∈ Tests.psd.cfg.levels) ∧
    (¬(2 ≤ (0 : Level).toNat ∧ (0 : Level).toNat ≤ 0x11) ∧ (¬∃ ch ∈ Tests.psd.cfg.channels, ch.cls = .classF ∧ ch.level = 0) ∧
      (0 : Level) ∈ Tests.psd.cfg.levels ∧ Tests.psd.cfg.rtomSoftwareEnable = true ∧
      { Config.default with rtomSoftwareEnable := false }.rtomSoftwareEnable = false) := by decide

theorem witness_BlockingInstructionsComplete : Tests.psw.mode = .psw ∧ (Tests.psd.mode = .psd ∧ Tests.psd.cfg.role = .cpu) ∧
    (Tests.ipu.mode = .psd ∧ Tests.ipu.cfg.role = .ipu) := by decide

/-- No channel, a channel of another class, and a Class F channel with its context block; the interlock held and not. -/
theorem witness_ClassFInstructionsComplete :
    let find (s : State) (n : BitVec 7) := s.cfg.channels.find? (fun ch => decide (ch.device = n))
    let ch : Channel := ⟨0x78, .classF, 0x15⟩
    Tests.psd.mode = .psd ∧ Tests.psd.cfg.role = .cpu ∧ Tests.psd.priv = true ∧ Tests.classF.MemoryInv ∧ Tests.classF.Alone ∧
    BitVec.ofNat 7 ((0 + (0x0100 : Half).toNat) / 256) = (1 : BitVec 7) ∧ find Tests.psd 1 = none ∧
    find Tests.psd 0x78 = some ⟨0x78, .class1, 0x20⟩ ∧
    BitVec.ofNat 7 ((0 + (0x7800 : Half).toNat) / 256) = (0x78 : BitVec 7) ∧ find Tests.classF 0x78 = some ch ∧
    Tests.classF.realRead (levelVector ch.level) = .ok 0xA80 ∧ Tests.classF.realRead ((0xA80 : Word).extractLsb' 0 24 + 16) = .ok 0xB00 ∧
    Tests.classF.present ((0xA80 : Word).extractLsb' 0 24 + 20) 4 = true ∧
    { Tests.classF with wcsInterlock := some 0x78 }.wcsInterlock = some ch.device ∧ Tests.classF.wcsInterlock ≠ some ch.device :=
  ⟨rfl, rfl, rfl, ⟨by decide, by decide⟩, rfl, by decide, by decide, by decide, by decide, by decide, rfl, rfl, by decide, rfl, by decide⟩

theorem witness_DeviceInstructionsComplete :
    let find (s : State) (n : BitVec 7) := s.cfg.channels.find? (fun ch => decide (ch.device = n))
    let classFPsw : State := { Tests.classF with mode := .psw }
    Tests.psd.cfg.role = .cpu ∧ Tests.psd.priv = true ∧ find Tests.psd 1 = none ∧ find Tests.psd 0x7A = some ⟨0x7A, .class0, 0x21⟩ ∧
    find Tests.classF 0x78 = some ⟨0x78, .classF, 0x15⟩ ∧ Tests.classF.mode = .psd ∧
    find classFPsw 0x78 = some ⟨0x78, .classF, 0x15⟩ ∧ classFPsw.mode = .psw := by decide

/-- 1 + 1; 1 - 2^-24, whose last digit is shifted out; 2 * (1 + 2^-20); 1 / 3: no exception, whatever becomes of the digit. -/
theorem witness_FloatingPointRounding :
    fpNormalized (0x41100000 : Word) = true ∧ fpNormalized (0x3B100000 : Word) = true ∧ fpNormalized (0x41200000 : Word) = true ∧
    fpNormalized (0x41100001 : Word) = true ∧ fpNormalized (0x41300000 : Word) = true ∧
    (fpArith 32 .add 0x41100000 0x41100000).exc = .none ∧ (fpArith 32 .sub 0x41100000 0x3B100000).exc = .none ∧
    (fpArith 32 .mul 0x41200000 0x41100001).exc = .none ∧ (fpArith 32 .div 0x41100000 0x41300000).exc = .none := by
  refine ⟨by decide, by decide, by decide, by decide, by decide, by decide, ?_, by decide, by decide⟩
  unfold fpArith fpAdd
  generalize Config.fpShiftedOut 32 .sub 0x41100000 0x3B100000 = out
  cases out <;> decide

/-- What the statement on memory errors asks in PSD mode: a CPU with traps enabled on which no bus agent writes. -/
def Tests.Ready (s : State) : Prop :=
  s.MemoryInv ∧ s.Alone ∧ s.cfg.role = .cpu ∧ s.mode = .psd ∧ s.trapsEnabled = true ∧ s.present 0x530 20 = true

theorem Tests.ready_of {s : State} (h : (Memory.wf s.mem = true ∧ Wcs.wf s.wcs = true) ∧ s.bus = [] ∧ s.cfg.role = .cpu ∧ s.mode = .psd ∧
    s.trapsEnabled = true ∧ s.present 0x530 20 = true) : Tests.Ready s := h

/-- Memory `p` has a good entry for the Machine Check. -/
def Tests.Checkable (p : State) : Prop :=
  p.realRead 0x184 = .ok 0xA00 ∧ p.BlockAt ((0xA00 : Word).extractLsb' 0 24) 0x80002000 0 ∧ keepsMap 0

theorem Tests.checkable_of {p : State} (h : p.realRead 0x184 = .ok 0xA00 ∧ (p.present 0xA00 4 = true ∧ p.present 0xA04 4 = true ∧
    p.present 0xA10 4 = true ∧ p.realRead 0xA08 = .ok 0x80002000 ∧ p.realRead 0xA0C = .ok 0) ∧
    ((0 : Word).toNat < 0x40000000 ∨ (0 : Word).getLsbD 16 = true)) : Tests.Checkable p := h

/-- A CPU whose Machine Check has its context block at X'A00', with words of memory, with bytes in error, and with the process of
`Tests.process`. -/
def Tests.erring (l : List (Nat × Nat)) (bad : List Nat) : State :=
  { Tests.process (Tests.words (Tests.block Tests.psd 0x184 0x80002000 0) l) with parityBad := bad }

/-- Reads of a map walk that fail: the process's own descriptor, a segment's, its first page entry, its second; the base
process's descriptor, its segment's, and the process's own segment after it. -/
theorem witness_MemoryErrorsDuringEntry_walk :
    let borrows (bad : List Nat) : State := Tests.erring [(0x200C, 0x82002110), (0x2000, 0x01002108), (0x2108, 0x01002300), (0x2110, 0x01002304),
      (0x2300, 0x80010000)] bad
    (Tests.erring [] [0x2008]).WalkFails 0x40000008 .parity (Tests.erring [] [0x2008]).map ∧
    (Tests.erring [] [0x2100]).WalkFails 0x40000008 .parity (mapOf []) ∧
    (Tests.erring [] [0x2200]).WalkFails 0x40000008 .parity (mapOf []) ∧
    (Tests.erring [] [0x2203]).WalkFails 0x40000008 .parity (mapOf [0x8000]) ∧
    (borrows [0x2000]).WalkFails 0x4000000C .parity (mapOf []) ∧
    (borrows [0x2108]).WalkFails 0x4000000C .parity (mapOf []) ∧
    (borrows [0x2110]).WalkFails 0x4000000C .parity (mapOf [0x8001]) ∧ ¬keepsMap 0x40000008 ∧ ¬keepsMap 0x4000000C := by
  refine ⟨Or.inl ⟨by decide, rfl⟩,
    Or.inr ⟨0x01002100, [], by decide, rfl, ?_⟩, Or.inr ⟨0x01002100, [], by decide, rfl, ?_⟩, Or.inr ⟨0x01002100, [0x8000], by decide, rfl, ?_⟩,
    Or.inr ⟨0x82002110, [], by decide, rfl, ?_⟩, Or.inr ⟨0x82002110, [], by decide, rfl, ?_⟩, Or.inr ⟨0x82002110, [0x8001], by decide, rfl, ?_⟩,
    by unfold keepsMap; decide, by unfold keepsMap; decide⟩
  · rw [if_pos (by decide)]
    exact ⟨[], [], by decide, nofun, ⟨by decide, Or.inl ⟨by decide, rfl⟩⟩, rfl⟩
  · rw [if_pos (by decide)]
    exact ⟨[], [], by decide, nofun, ⟨by decide, Or.inr ⟨0x02002200, by decide, by decide, by decide, nofun, by decide⟩⟩, rfl⟩
  · rw [if_pos (by decide)]
    exact ⟨[], [0x8000], by decide, nofun, ⟨by decide, Or.inr ⟨0x02002200, by decide, by decide, by decide, by decide, by decide⟩⟩, rfl⟩
  · rw [if_neg (by decide)]
    exact Or.inl ⟨by decide, rfl⟩
  · rw [if_neg (by decide)]
    exact Or.inr ⟨0x01002108, by decide, Or.inl ⟨by decide, Or.inl ⟨by decide, rfl⟩⟩⟩
  · rw [if_neg (by decide)]
    exact Or.inr ⟨0x01002108, by decide, Or.inr ⟨[0x8001], [], ⟨0x01002300, by decide⟩,
      ⟨[], [], by decide, nofun, ⟨by decide, Or.inl ⟨by decide, rfl⟩⟩, rfl⟩, rfl⟩⟩

/-- The walk of `Tests.process` that fails on its second page entry. -/
theorem Tests.walks_of {p : State} (h : p.realRead (p.mplAddr + 8) = .ok 0x01002100 ∧ p.realRead 0x2100 = .ok 0x02002200 ∧
    p.realRead16 0x2200 = .ok 0x8000 ∧ p.realRead16 0x2202 = .error .parity) : p.WalkFails 0x40000008 .parity (mapOf [0x8000]) := by
  refine Or.inr ⟨0x01002100, [0x8000], h.1, rfl, ?_⟩
  rw [if_pos (by decide)]
  refine ⟨[], [0x8000], by decide, nofun, ⟨by decide, Or.inr ⟨0x02002200, h.2.1, by decide, by decide, fun k hk => ?_, h.2.2.2⟩⟩, rfl⟩
  obtain rfl : k = 0 := Nat.lt_one_iff.1 hk
  exact h.2.2.1

theorem Tests.stops {a : Addr} {w : Word} {rest : List (Addr × Word)} {s : State} (h : s.present a 4 = false) :
    StoresStop ((a, w) :: rest) s s := by rw [StoresStop, if_neg (by rw [h]; decide)]

theorem Tests.stores {a : Addr} {w : Word} {rest : List (Addr × Word)} {s p : State} (h : s.present a 4 = true)
    (h2 : StoresStop rest (s.poke32 a w) p) : StoresStop ((a, w) :: rest) s p := by rw [StoresStop, if_pos h]; exact h2

/-- Entries of the trap of an undefined instruction that fail: on the vector, on each store, on each read of the new PSD, and in
the map walk; each leaves a good entry for the Machine Check. -/
theorem witness_MemoryErrorsDuringEntry_trap :
    let fails (s : State) (e : MemError) (stored : Bool) (map : Vector Half 32) : Prop := Tests.Ready s ∧ ∃ p, Tests.Checkable p ∧
      s.TrapFails e (Trap.vector .undefined) (((s.status ||| Trap.statusBits .psd .undefined) &&& 0xFFFFFF1E) ||| s.liveBits) p stored map
    fails (Tests.erring [] [0x194]) .parity false (Tests.erring [] []).map ∧
    fails (Tests.erring [(0x194, 0x80000)] []) .nonpresent false (Tests.erring [] []).map ∧
    fails (Tests.erring [(0x194, 0x7FFFC)] []) .nonpresent false (Tests.erring [] []).map ∧
    fails (Tests.erring [(0x194, 0x7FFF0)] []) .nonpresent false (Tests.erring [] []).map ∧
    fails (Tests.erring [(0x194, 0xC00)] [0xC08]) .parity true (Tests.erring [] []).map ∧
    fails (Tests.erring [(0x194, 0xC00)] [0xC0F]) .parity true (Tests.erring [] []).map ∧
    fails (Tests.erring [(0x194, 0xC00), (0xC0C, 0x40000008)] [0x2203]) .parity true (mapOf [0x8000]) ∧
    (∀ c, Trap.undefined ≠ .machineCheck c) :=
  ⟨⟨Tests.ready_of (by decide), _, Tests.checkable_of (by decide), Or.inl ⟨by decide, rfl, rfl, rfl⟩⟩,
    ⟨Tests.ready_of (by decide), _, Tests.checkable_of (by decide), Or.inr ⟨0x80000, by decide, Or.inl ⟨rfl, rfl, rfl, Tests.stops (by decide)⟩⟩⟩,
    ⟨Tests.ready_of (by decide), _, Tests.checkable_of (by decide),
      Or.inr ⟨0x7FFFC, by decide, Or.inl ⟨rfl, rfl, rfl, Tests.stores (by decide) (Tests.stops (by decide))⟩⟩⟩,
    ⟨Tests.ready_of (by decide), _, Tests.checkable_of (by decide),
      Or.inr ⟨0x7FFF0, by decide, Or.inl ⟨rfl, rfl, rfl, Tests.stores (by decide) (Tests.stores (by decide) (Tests.stops (by decide)))⟩⟩⟩,
    ⟨Tests.ready_of (by decide), _, Tests.checkable_of (by decide),
      Or.inr ⟨0xC00, by decide, Or.inr ⟨by decide, by decide, by decide, rfl, rfl, Or.inl ⟨by decide, rfl⟩⟩⟩⟩,
    ⟨Tests.ready_of (by decide), _, Tests.checkable_of (by decide),
      Or.inr ⟨0xC00, by decide, Or.inr ⟨by decide, by decide, by decide, rfl, rfl, Or.inr ⟨0, by decide, Or.inl ⟨by decide, rfl⟩⟩⟩⟩⟩,
    ⟨Tests.ready_of (by decide), _, Tests.checkable_of (by decide),
      Or.inr ⟨0xC00, by decide, Or.inr ⟨by decide, by decide, by decide, rfl, rfl,
        Or.inr ⟨0, by decide, Or.inr ⟨0x40000008, by decide, by unfold keepsMap; decide, Tests.walks_of (by decide)⟩⟩⟩⟩⟩, nofun⟩

/-- The same for the entry of level X'13' in PSD mode, for the Machine Check's own entry, and for a level in PSW mode. -/
theorem witness_MemoryErrorsDuringEntry_level :
    let fails (s : State) (e : MemError) (map : Vector Half 32) : Prop := Tests.Ready s ∧ ∃ p, Tests.Checkable p ∧ s.LevelFails e 0x13 p map
    let own (s : State) (e : MemError) (stored : Bool) (map : Vector Half 32) : Prop := Tests.Ready s ∧
      ∃ p, s.TrapFails e 0x184 (((s.status ||| (Trap.machineCheck .mapOverflow).statusBits .psd) &&& 0xFFFFFF1E) ||| s.liveBits) p stored map
    let psw (s : State) : State := { s with mode := .psw }
    let halts (s : State) (e : MemError) : Prop := s.MemoryInv ∧ s.Alone ∧ s.cfg.role = .cpu ∧ s.mode = .psw ∧ s.present 0x530 20 = true ∧
      ∃ p, s.PswLevelFails e 0x13 p
    fails (Tests.erring [] [0xEC]) .parity (Tests.erring [] []).map ∧
    fails (Tests.erring [(0xEC, 0x80000)] []) .nonpresent (Tests.erring [] []).map ∧
    fails (Tests.erring [(0xEC, 0x7FFFC)] []) .nonpresent (Tests.erring [] []).map ∧
    fails (Tests.erring [(0xEC, 0xC00)] [0xC08]) .parity (Tests.erring [] []).map ∧
    fails (Tests.erring [(0xEC, 0xC00)] [0xC0F]) .parity (Tests.erring [] []).map ∧
    fails (Tests.erring [(0xEC, 0xC00), (0xC0C, 0x40000008)] [0x2203]) .parity (mapOf [0x8000]) ∧
    own (Tests.erring [] [0x184]) .parity false (Tests.erring [] []).map ∧
    own (Tests.erring [(0x184, 0x80000)] []) .nonpresent false (Tests.erring [] []).map ∧
    own (Tests.erring [] [0xA08]) .parity true (Tests.erring [] []).map ∧
    own (Tests.erring [(0xA0C, 0x40000008)] [0x2203]) .parity true (mapOf [0x8000]) ∧
    halts (psw (Tests.erring [] [0xEC])) .parity ∧
    halts (psw (Tests.erring [(0xEC, 0x80000)] [])) .nonpresent ∧
    halts (psw (Tests.erring [(0xEC, 0x7FFFC)] [])) .nonpresent :=
  ⟨⟨Tests.ready_of (by decide), _, Tests.checkable_of (by decide), Or.inl ⟨by decide, rfl, rfl⟩⟩,
    ⟨Tests.ready_of (by decide), _, Tests.checkable_of (by decide), Or.inr ⟨0x80000, by decide, Or.inl ⟨rfl, rfl, Tests.stops (by decide)⟩⟩⟩,
    ⟨Tests.ready_of (by decide), _, Tests.checkable_of (by decide),
      Or.inr ⟨0x7FFFC, by decide, Or.inl ⟨rfl, rfl, Tests.stores (by decide) (Tests.stops (by decide))⟩⟩⟩,
    ⟨Tests.ready_of (by decide), _, Tests.checkable_of (by decide),
      Or.inr ⟨0xC00, by decide, Or.inr ⟨by decide, by decide, by decide, rfl, Or.inl ⟨by decide, rfl⟩⟩⟩⟩,
    ⟨Tests.ready_of (by decide), _, Tests.checkable_of (by decide),
      Or.inr ⟨0xC00, by decide, Or.inr ⟨by decide, by decide, by decide, rfl, Or.inr ⟨0, by decide, Or.inl ⟨by decide, rfl⟩⟩⟩⟩⟩,
    ⟨Tests.ready_of (by decide), _, Tests.checkable_of (by decide),
      Or.inr ⟨0xC00, by decide, Or.inr ⟨by decide, by decide, by decide, rfl,
        Or.inr ⟨0, by decide, Or.inr ⟨0x40000008, by decide, by unfold keepsMap; decide, Tests.walks_of (by decide)⟩⟩⟩⟩⟩,
    ⟨Tests.ready_of (by decide), _, Or.inl ⟨by decide, rfl, rfl, rfl⟩⟩,
    ⟨Tests.ready_of (by decide), _, Or.inr ⟨0x80000, by decide, Or.inl ⟨rfl, rfl, rfl, Tests.stops (by decide)⟩⟩⟩,
    ⟨Tests.ready_of (by decide), _, Or.inr ⟨0xA00, by decide, Or.inr ⟨by decide, by decide, by decide, rfl, rfl, Or.inl ⟨by decide, rfl⟩⟩⟩⟩,
    ⟨Tests.ready_of (by decide), _, Or.inr ⟨0xA00, by decide, Or.inr ⟨by decide, by decide, by decide, rfl, rfl,
      Or.inr ⟨0x80002000, by decide, Or.inr ⟨0x40000008, by decide, by unfold keepsMap; decide, Tests.walks_of (by decide)⟩⟩⟩⟩⟩,
    ⟨⟨by decide, by decide⟩, rfl, rfl, rfl, by decide, _, Or.inl ⟨by decide, rfl⟩⟩,
    ⟨⟨by decide, by decide⟩, rfl, rfl, rfl, by decide, _, Or.inr ⟨0x80000, by decide, Or.inl ⟨rfl, by decide, rfl⟩⟩⟩,
    ⟨⟨by decide, by decide⟩, rfl, rfl, rfl, by decide, _, Or.inr ⟨0x7FFFC, by decide, Or.inr ⟨by decide, rfl, by decide⟩⟩⟩⟩

/-- LPSDCM of a PSD whose map walk fails. -/
theorem witness_MemoryErrorsDuringEntry :
    let s : State := Tests.erring [(0x3000, 0x80002000), (0x3004, 0x40000008)] [0x2203]
    Tests.Ready s ∧ s.priv = true ∧ (∃ f s1, s.effective (MemRef.word ⟨0, false, 0x3000⟩) = .ok f s1 ∧ decide (f.ea = 0x3000) = true) ∧
      s.ReadsWord (doubleAddr 0x3000) 0x80002000 ∧ s.ReadsWord (doubleAddr 0x3000 + 4) 0x40000008 ∧ ¬keepsMap 0x40000008 ∧
      s.WalkFails 0x40000008 .parity (mapOf [0x8000]) :=
  ⟨Tests.ready_of (by decide), rfl, Tests.eff_of (by decide), ⟨0x3000, Tests.reaches_of (by decide), by decide⟩,
    ⟨0x3004, Tests.reaches_of (by decide), by decide⟩, by unfold keepsMap; decide, Tests.walks_of (by decide)⟩
end

section
/-! PROOFS. The transfers between general registers (41_register_transfer.md R253, R254, R257 to R262). -/

namespace Sys2Proof

/-- The fields of a halfword whose bits outside the two register fields are `bits`. -/
theorem HalfFields.ofHalf_of_masked {h bits : Half} (e : h &&& 0xFC0F = bits) :
    HalfFields.ofHalf h = ⟨bits.extractLsb' 10 6, h.extractLsb' 7 3, h.extractLsb' 4 3, bits.extractLsb' 0 4⟩ := by
  have op : bits.extractLsb' 10 6 = h.extractLsb' 10 6 := by
    rw [← e, BitVec.extractLsb'_and]
    exact BitVec.and_allOnes
  have aug : bits.extractLsb' 0 4 = h.extractLsb' 0 4 := by
    rw [← e, BitVec.extractLsb'_and]
    exact BitVec.and_allOnes
  rw [op, aug]; rfl

/-- A halfword of op code 001011 decodes by its augmenting code alone, whatever registers it names (30_encoding.md
R152). -/
theorem decode_of_group2C {bits : Half} {f : Reg → Reg → Instr} (op : bits.extractLsb' 10 6 = 0b001011#6)
    (aug : ∀ sr d, decodeGroup2C ⟨0b001011#6, d, sr, bits.extractLsb' 0 4⟩ = some (f sr d)) (h : Half)
    (e : h &&& 0xFC0F = bits) : decode (.half h) = some (f (h.extractLsb' 4 3) (h.extractLsb' 7 3)) := by
  rw [decode, HalfFields.ofHalf_of_masked e, op]
  exact aug _ _

namespace Machine

/-! ## What the shared operations leave, by the signed value of the result -/

/-- The one's complement, as the rules write it: the exclusive OR with a word of ones (R259, R260). -/
theorem xor_ones_eq_not (a : Word) : a ^^^ 0xFFFFFFFF = ~~~a := BitVec.xor_allOnes

theorem zero_sub_eq_ofInt_neg {n : Nat} (a : BitVec n) : 0 - a = BitVec.ofInt n (-a.toInt) := by
  rw [BitVec.ofInt_neg, BitVec.ofInt_toInt]
  exact BitVec.zero_sub a

/-- A negation overflows at the most negative value and nowhere else (R257). -/
theorem negOverflow_eq {n : Nat} (hn : 0 < n) (a : BitVec n) : negOverflow a = decide (a = BitVec.intMin n) := by
  have neg : 0 - a = -a := BitVec.zero_sub a
  have zero : (0 : BitVec n).toInt = 0 := BitVec.toInt_zero
  rw [negOverflow, subOverflow, decide_eq_decide, neg, zero, Int.zero_sub]
  constructor
  · exact fun h => by_contra fun ne => h (BitVec.toInt_neg_of_ne_intMin ne)
  · rintro rfl
    have pos : (0 : Int) < 2 ^ (n - 1) := by positivity
    rw [BitVec.neg_intMin, BitVec.toInt_intMin_of_pos hn]
    omega

theorem transfer_eq (d : Reg) (v : Word) (s : State) :
    transfer d v s = (s.setReg d v).setCc (signCc false v.toInt) := by
  rw [transfer, ccOf_eq_signCc]

theorem transferNegative_eq (d : Reg) (a mask : Word) (s : State) :
    let v : Word := BitVec.ofInt 32 (-a.toInt) &&& mask
    transferNegative d a mask s =
      (s.setReg d v).afterArith (decide (a = 0x80000000)) (signCc (decide (a = 0x80000000)) v.toInt) := by
  rw [transferNegative, State.setArith_eq, negOverflow_eq (by decide), zero_sub_eq_ofInt_neg]
  rfl

theorem exchange_eq (sr d : Reg) (a b : Word) (s : State) :
    exchange sr d a b s = ((s.setReg d a).setReg sr b).setCc (signCc false b.toInt) := by
  rw [exchange, ccOf_eq_signCc]

/-! ## Each transfer by its shared operation -/

section
variable (sr d : Reg) (s : State)

/-- ZR is the exclusive OR of a register with itself, which is zero (40_load_store.md R231; log 24). -/
theorem exec_zr : exec (.zr d) s = .next (transfer d 0 s) := by
  have self : s.reg d ^^^ s.reg d = 0 := BitVec.xor_self
  rw [← self]; rfl

theorem exec_trr : exec (.trr sr d) s = .next (transfer d (s.reg sr) s) := rfl

theorem exec_trrm : exec (.trrm sr d) s = .next (transfer d (s.reg sr &&& s.reg 4) s) := rfl

theorem exec_trn : exec (.trn sr d) s = .next (transferNegative d (s.reg sr) 0xFFFFFFFF s) := rfl

theorem exec_trnm : exec (.trnm sr d) s = .next (transferNegative d (s.reg sr) (s.reg 4) s) := rfl

theorem exec_trc : exec (.trc sr d) s = .next (transfer d (s.reg sr ^^^ 0xFFFFFFFF) s) := by
  rw [xor_ones_eq_not]; rfl

theorem exec_trcm : exec (.trcm sr d) s = .next (transfer d ((s.reg sr ^^^ 0xFFFFFFFF) &&& s.reg 4) s) := by
  rw [xor_ones_eq_not]; rfl

theorem exec_xcr : exec (.xcr sr d) s = .next (exchange sr d (s.reg sr) (s.reg d) s) := rfl

theorem exec_xcrm : exec (.xcrm sr d) s = .next (exchange sr d (s.reg sr &&& s.reg 4) (s.reg d &&& s.reg 4) s) := rfl

end

end Machine

open Machine

/-- Settles O32: each halfword is of op code 001011 and decodes by its augmenting code; each instruction is a transfer,
a negation or an exchange, whose condition code is that of the signed value delivered. -/
theorem registerTransfersComplete : Obligations.RegisterTransfersComplete := by
  intro s sr d into negated exchanged codes
  have decodes : codes 0x2C00 .trr ∧ codes 0x2C08 .trrm ∧ codes 0x2C04 .trn ∧ codes 0x2C0C .trnm ∧
      codes 0x2C03 .trc ∧ codes 0x2C0B .trcm ∧ codes 0x2C05 .xcr ∧ codes 0x2C0D .xcrm := by
    refine ⟨?_, ?_, ?_, ?_, ?_, ?_, ?_, ?_⟩ <;> exact decode_of_group2C rfl fun _ _ => rfl
  refine ⟨decodes, ?zr, ?trr, ?trrm, ?trn, ?trnm, ?trc, ?trcm, ?xcr, ?xcrm⟩
  case zr => rw [exec_zr, transfer_eq]
  case trr => rw [exec_trr, transfer_eq]
  case trrm => rw [exec_trrm, transfer_eq]
  case trn => rw [exec_trn, transferNegative_eq]
  case trnm => rw [exec_trnm, transferNegative_eq]
  case trc => rw [exec_trc, transfer_eq]
  case trcm => rw [exec_trcm, transfer_eq]
  case xcr => rw [exec_xcr, exchange_eq]
  case xcrm => rw [exec_xcrm, exchange_eq]

end Sys2Proof
end

section
/-! PROOFS. NOP (51_control.md R511). -/

namespace Sys2Proof

/-- The halfword X'0002' has NOP's fields: op code 000000, no register, augmenting code 2 (51_control.md R530). -/
theorem ofHalf_eq_encodeFields_nop : Fields.half (HalfFields.ofHalf 0x0002) = encodeFields .nop := by decide

theorem decode_nop : decode (.half 0x0002) = some .nop :=
  calc decode (.half 0x0002)
    _ = decodeFields (.half (HalfFields.ofHalf 0x0002)) := rfl
    _ = decodeFields (encodeFields .nop) := by rw [ofHalf_eq_encodeFields_nop]
    _ = some .nop := Laws.Encoding.nop rfl

theorem Machine.exec_nop (s : State) : exec .nop s = .next s := rfl

/-- Settles O50: the halfword has NOP's fields, which decode to it, and its meaning answers the state it is given. -/
theorem nopCompletes : Obligations.NopCompletes :=
  ⟨decode_nop, Machine.exec_nop⟩

end Sys2Proof
end

section
/-! PROOFS. Decoding and encoding (30_encoding.md R140 to R160). -/

namespace Sys2Proof

/-- Every well-formed instruction's fields decode to it, by the statements made per instruction. -/
theorem decodeFields_encodeFields (i : Instr) : Laws.Encoding.Statement i :=
  match i with
  | .lb r m => Laws.Encoding.lb r m
  | .lh r m => Laws.Encoding.lh r m
  | .lw r m => Laws.Encoding.lw r m
  | .ld r m => Laws.Encoding.ld r m
  | .lmb r m => Laws.Encoding.lmb r m
  | .lmh r m => Laws.Encoding.lmh r m
  | .lmw r m => Laws.Encoding.lmw r m
  | .lmd r m => Laws.Encoding.lmd r m
  | .lnb r m => Laws.Encoding.lnb r m
  | .lnh r m => Laws.Encoding.lnh r m
  | .lnw r m => Laws.Encoding.lnw r m
  | .lnd r m => Laws.Encoding.lnd r m
  | .li r v => Laws.Encoding.li r v
  | .lea r m => Laws.Encoding.lea r m
  | .lear r m => Laws.Encoding.lear r m
  | .la r m => Laws.Encoding.la r m
  | .lf r m => Laws.Encoding.lf r m
  | .stb r m => Laws.Encoding.stb r m
  | .sth r m => Laws.Encoding.sth r m
  | .stw r m => Laws.Encoding.stw r m
  | .std r m => Laws.Encoding.std r m
  | .stmb r m => Laws.Encoding.stmb r m
  | .stmh r m => Laws.Encoding.stmh r m
  | .stmw r m => Laws.Encoding.stmw r m
  | .stmd r m => Laws.Encoding.stmd r m
  | .stf r m => Laws.Encoding.stf r m
  | .zmb m => Laws.Encoding.zmb m
  | .zmh m => Laws.Encoding.zmh m
  | .zmw m => Laws.Encoding.zmw m
  | .zmd m => Laws.Encoding.zmd m
  | .zr d => Laws.Encoding.zr d
  | .tscr s d => Laws.Encoding.tscr s d
  | .trsc s d => Laws.Encoding.trsc s d
  | .trr s d => Laws.Encoding.trr s d
  | .trrm s d => Laws.Encoding.trrm s d
  | .trp p r => Laws.Encoding.trp p r
  | .tpr p r => Laws.Encoding.tpr p r
  | .trn s d => Laws.Encoding.trn s d
  | .trnm s d => Laws.Encoding.trnm s d
  | .trc s d => Laws.Encoding.trc s d
  | .trcm s d => Laws.Encoding.trcm s d
  | .xcr s d => Laws.Encoding.xcr s d
  | .xcrm s d => Laws.Encoding.xcrm s d
  | .trsw s => Laws.Encoding.trsw s
  | .sea => Laws.Encoding.sea
  | .cea => Laws.Encoding.cea
  | .lmap d => Laws.Encoding.lmap d
  | .tmapr s d => Laws.Encoding.tmapr s d
  | .wwcs s d => Laws.Encoding.wwcs s d
  | .rwcs s d => Laws.Encoding.rwcs s d
  | .jwcs m => Laws.Encoding.jwcs m
  | .bu m => Laws.Encoding.bu m
  | .bct c m => Laws.Encoding.bct c m
  | .bcf c m => Laws.Encoding.bcf c m
  | .bft m => Laws.Encoding.bft m
  | .bl m => Laws.Encoding.bl m
  | .bib r ind a => Laws.Encoding.bib r ind a
  | .bih r ind a => Laws.Encoding.bih r ind a
  | .biw r ind a => Laws.Encoding.biw r ind a
  | .bid r ind a => Laws.Encoding.bid r ind a
  | .camb r m => Laws.Encoding.camb r m
  | .camh r m => Laws.Encoding.camh r m
  | .camw r m => Laws.Encoding.camw r m
  | .camd r m => Laws.Encoding.camd r m
  | .car s d => Laws.Encoding.car s d
  | .ci r v => Laws.Encoding.ci r v
  | .cmmb r m => Laws.Encoding.cmmb r m
  | .cmmh r m => Laws.Encoding.cmmh r m
  | .cmmw r m => Laws.Encoding.cmmw r m
  | .cmmd r m => Laws.Encoding.cmmd r m
  | .cmr s d => Laws.Encoding.cmr s d
  | .anmb r m => Laws.Encoding.anmb r m
  | .anmh r m => Laws.Encoding.anmh r m
  | .anmw r m => Laws.Encoding.anmw r m
  | .anmd r m => Laws.Encoding.anmd r m
  | .anr s d => Laws.Encoding.anr s d
  | .ormb r m => Laws.Encoding.ormb r m
  | .ormh r m => Laws.Encoding.ormh r m
  | .ormw r m => Laws.Encoding.ormw r m
  | .ormd r m => Laws.Encoding.ormd r m
  | .orr s d => Laws.Encoding.orr s d
  | .orrm s d => Laws.Encoding.orrm s d
  | .eomb r m => Laws.Encoding.eomb r m
  | .eomh r m => Laws.Encoding.eomh r m
  | .eomw r m => Laws.Encoding.eomw r m
  | .eomd r m => Laws.Encoding.eomd r m
  | .eor s d => Laws.Encoding.eor s d
  | .eorm s d => Laws.Encoding.eorm s d
  | .nor s d => Laws.Encoding.nor s d
  | .nord s d => Laws.Encoding.nord s d
  | .scz s d => Laws.Encoding.scz s d
  | .sla r n => Laws.Encoding.sla r n
  | .sll r n => Laws.Encoding.sll r n
  | .slc r n => Laws.Encoding.slc r n
  | .slad r n => Laws.Encoding.slad r n
  | .slld r n => Laws.Encoding.slld r n
  | .sra r n => Laws.Encoding.sra r n
  | .srl r n => Laws.Encoding.srl r n
  | .src r n => Laws.Encoding.src r n
  | .srad r n => Laws.Encoding.srad r n
  | .srld r n => Laws.Encoding.srld r n
  | .sbm c m => Laws.Encoding.sbm c m
  | .sbr c r b => Laws.Encoding.sbr c r b
  | .zbm c m => Laws.Encoding.zbm c m
  | .zbr c r b => Laws.Encoding.zbr c r b
  | .abm c m => Laws.Encoding.abm c m
  | .abr c r b => Laws.Encoding.abr c r b
  | .tbm c m => Laws.Encoding.tbm c m
  | .tbr c r b => Laws.Encoding.tbr c r b
  | .admb r m => Laws.Encoding.admb r m
  | .admh r m => Laws.Encoding.admh r m
  | .admw r m => Laws.Encoding.admw r m
  | .admd r m => Laws.Encoding.admd r m
  | .adr s d => Laws.Encoding.adr s d
  | .adrm s d => Laws.Encoding.adrm s d
  | .armb r m => Laws.Encoding.armb r m
  | .armh r m => Laws.Encoding.armh r m
  | .armw r m => Laws.Encoding.armw r m
  | .armd r m => Laws.Encoding.armd r m
  | .adi r v => Laws.Encoding.adi r v
  | .sumb r m => Laws.Encoding.sumb r m
  | .sumh r m => Laws.Encoding.sumh r m
  | .sumw r m => Laws.Encoding.sumw r m
  | .sumd r m => Laws.Encoding.sumd r m
  | .sur s d => Laws.Encoding.sur s d
  | .surm s d => Laws.Encoding.surm s d
  | .sui r v => Laws.Encoding.sui r v
  | .mpmb r m => Laws.Encoding.mpmb r m
  | .mpmh r m => Laws.Encoding.mpmh r m
  | .mpmw r m => Laws.Encoding.mpmw r m
  | .mpr s d => Laws.Encoding.mpr s d
  | .mpi r v => Laws.Encoding.mpi r v
  | .dvmb r m => Laws.Encoding.dvmb r m
  | .dvmh r m => Laws.Encoding.dvmh r m
  | .dvmw r m => Laws.Encoding.dvmw r m
  | .dvr s d => Laws.Encoding.dvr s d
  | .dvi r v => Laws.Encoding.dvi r v
  | .es d => Laws.Encoding.es d
  | .rnd d => Laws.Encoding.rnd d
  | .adfw r m => Laws.Encoding.adfw r m
  | .adfd r m => Laws.Encoding.adfd r m
  | .sufw r m => Laws.Encoding.sufw r m
  | .sufd r m => Laws.Encoding.sufd r m
  | .mpfw r m => Laws.Encoding.mpfw r m
  | .mpfd r m => Laws.Encoding.mpfd r m
  | .dvfw r m => Laws.Encoding.dvfw r m
  | .dvfd r m => Laws.Encoding.dvfd r m
  | .bri m => Laws.Encoding.bri m
  | .lpsd m => Laws.Encoding.lpsd m
  | .lcs d => Laws.Encoding.lcs d
  | .lpsdcm m => Laws.Encoding.lpsdcm m
  | .exr s => Laws.Encoding.exr s
  | .exrr s => Laws.Encoding.exrr s
  | .exm m => Laws.Encoding.exm m
  | .halt => Laws.Encoding.halt
  | .wait => Laws.Encoding.wait
  | .nop => Laws.Encoding.nop
  | .sipu => Laws.Encoding.sipu
  | .calm flags => Laws.Encoding.calm flags
  | .svc ix call => Laws.Encoding.svc ix call
  | .setcpu s => Laws.Encoding.setcpu s
  | .rdsts d => Laws.Encoding.rdsts d
  | .eae => Laws.Encoding.eae
  | .dae => Laws.Encoding.dae
  | .ei l => Laws.Encoding.ei l
  | .di l => Laws.Encoding.di l
  | .ri l => Laws.Encoding.ri l
  | .ai l => Laws.Encoding.ai l
  | .dai l => Laws.Encoding.dai l
  | .eci r k => Laws.Encoding.eci r k
  | .dci r k => Laws.Encoding.dci r k
  | .aci r k => Laws.Encoding.aci r k
  | .daci r k => Laws.Encoding.daci r k
  | .bei => Laws.Encoding.bei
  | .uei => Laws.Encoding.uei
  | .cd n f => Laws.Encoding.cd n f
  | .td n f => Laws.Encoding.td n f
  | .sio r k => Laws.Encoding.sio r k
  | .tio r k => Laws.Encoding.tio r k
  | .stpio r k => Laws.Encoding.stpio r k
  | .rschnl r k => Laws.Encoding.rschnl r k
  | .hio r k => Laws.Encoding.hio r k
  | .grio r k => Laws.Encoding.grio r k
  | .rsctl r k => Laws.Encoding.rsctl r k
  | .ecwcs r k => Laws.Encoding.ecwcs r k
  | .wcwcs r k => Laws.Encoding.wcwcs r k

theorem decode_toCode (f : Fields) : decode f.toCode = decodeFields f := by
  cases f with
  | half f => exact congrArg decodeHalfFields (HalfFields.ofHalf_toHalf f)
  | word f => exact congrArg decodeWordFields (WordFields.ofWord_toWord f)

theorem decode_encode {i : Instr} (h : wellFormed i = true) : decode (encode i) = some i := by
  rw [encode, decode_toCode, decodeFields_encodeFields i h]

/-- A part of a part. -/
theorem extract_extract {n : Nat} (a : BitVec n) {j m k l : Nat} (h : k + l ≤ m) :
    (a.extractLsb' j m).extractLsb' k l = a.extractLsb' (j + k) l := by
  ext i hi
  simp [BitVec.getElem_extractLsb', show k + i < m by omega, Nat.add_assoc]

/-! ## The length that the first halfword decides -/

/-- A halfword that is an instruction is one by its first op code bits (30_encoding.md R144). -/
theorem isHalfword_of_decode_half {h : Half} {i : Instr} (e : decode (.half h) = some i) : isHalfword h = true := by
  have op : (HalfFields.ofHalf h).op = h.extractLsb' 10 6 := rfl
  have aug : (HalfFields.ofHalf h).aug = h.extractLsb' 0 4 := rfl
  unfold isHalfword
  simp only [← op, ← aug]
  simp only [decode] at e
  generalize HalfFields.ofHalf h = f at e
  unfold decodeHalfFields at e
  split at e
  case h_12 =>
    unfold decodeGroup2C at e
    split at e <;> simp_all
  all_goals simp_all

/-- Bits 12 to 15 of LMAP's word are 0111. -/
theorem lmap_augmenting {w : Word} {i : Instr} (e : decodeLmap (WordFields.ofWord w) = some i) : w.extractLsb' 16 4 = 7#4 := by
  unfold decodeLmap at e
  split at e
  · rename_i h
    obtain ⟨hu, ha, -⟩ := h
    have bit : w.getLsbD 19 = false := by
      have hb : (WordFields.ofWord w).upper4.getLsbD 0 = w.getLsbD 19 := bit_append_right _ _
      rw [← hb, hu]; rfl
    have low : w.extractLsb' 16 3 = 7#3 := (extract_extract w (by decide)).symm.trans ha
    have h1 : (w.extractLsb' 16 4).extractLsb' 3 1 = 0#1 := by
      rw [extract_extract w (by decide)]
      ext k hk
      have : k = 0 := by omega
      subst this
      simpa using bit
    have h2 : (w.extractLsb' 16 4).extractLsb' 0 3 = 7#3 := (extract_extract w (by decide)).trans low
    rw [← append_extract (n := 1) 3 (w.extractLsb' 16 4), h1, h2]
    rfl
  · cases e

/-- A word that is an instruction does not begin with a halfword instruction. -/
theorem isHalfword_of_decode_word {w : Word} {i : Instr} (e : decode (.word w) = some i) :
    isHalfword (w.extractLsb' 16 16) = false := by
  have op : (w.extractLsb' 16 16).extractLsb' 10 6 = (WordFields.ofWord w).op := extract_extract w (by decide)
  have aug : (w.extractLsb' 16 16).extractLsb' 0 4 = w.extractLsb' 16 4 := extract_extract w (by decide)
  unfold isHalfword
  simp only [op, aug]
  simp only [decode] at e
  unfold decodeWordFields at e
  split at e
  case h_1 h => simp [h, lmap_augmenting e]
  all_goals simp_all

/-! ## Bytes -/

theorem half_bytes (h : Half) : h.extractLsb' 8 8 ++ h.extractLsb' 0 8 = h := append_extract 8 h

theorem word_upper_bytes (w : Word) : w.extractLsb' 24 8 ++ w.extractLsb' 16 8 = w.extractLsb' 16 16 := by
  have e := append_extract (n := 8) 8 (w.extractLsb' 16 16)
  rwa [extract_extract w (by decide), extract_extract w (by decide)] at e

theorem word_bytes (w : Word) :
    w.extractLsb' 24 8 ++ w.extractLsb' 16 8 ++ w.extractLsb' 8 8 ++ w.extractLsb' 0 8 = w := by
  have upper : w.extractLsb' 16 16 ++ w.extractLsb' 8 8 = w.extractLsb' 8 24 := by
    have e := append_extract (n := 16) 8 (w.extractLsb' 8 24)
    rwa [extract_extract w (by decide), extract_extract w (by decide)] at e
  rw [word_upper_bytes, upper]
  exact append_extract (n := 24) 8 w

/-- The bytes of a halfword or word that decodes are read back to the instruction, whatever follows. -/
theorem decodeBytes_bytes {c : Code} {i : Instr} (h : decode c = some i) (rest : List Byte) :
    decodeBytes (c.bytes ++ rest) = .instr i rest := by
  cases c with
  | half c =>
    have hc := isHalfword_of_decode_half h
    rw [← half_bytes c] at hc h
    show decodeBytes (c.extractLsb' 8 8 :: c.extractLsb' 0 8 :: rest) = _
    simp only [decodeBytes, hc, h, if_true]
  | word w =>
    have hw := isHalfword_of_decode_word h
    rw [← word_upper_bytes w] at hw
    rw [← word_bytes w] at h
    show decodeBytes (w.extractLsb' 24 8 :: w.extractLsb' 16 8 :: w.extractLsb' 8 8 :: w.extractLsb' 0 8 :: rest) = _
    simp only [decodeBytes, hw, h, Bool.false_eq_true, if_false]

/-! ## The decoder answers only well-formed instructions -/

theorem wellFormed_of_noOperand {f : HalfFields} {i j : Instr} (h : f.noOperand i = some j) (hi : wellFormed i = true) :
    wellFormed j = true := by
  unfold HalfFields.noOperand at h
  split at h <;> cases h
  exact hi

theorem wellFormed_of_decodeGroup00 {f : HalfFields} {i : Instr} (h : decodeGroup00 f = some i) : wellFormed i = true := by
  unfold decodeGroup00 at h
  split at h
  case h_4 | h_5 | h_6 | h_10 | h_12 | h_13 => cases h; rfl
  all_goals exact wellFormed_of_noOperand h rfl

theorem wellFormed_of_decodeHalfFields {f : HalfFields} {i : Instr} (h : decodeHalfFields f = some i) : wellFormed i = true := by
  unfold decodeHalfFields at h
  split at h
  case h_1 => exact wellFormed_of_decodeGroup00 h
  case h_12 => unfold decodeGroup2C at h; split at h <;> cases h <;> rfl
  all_goals
    repeat' split at h
    all_goals cases h <;> rfl

theorem wellFormed_typed (f : WordFields) {b : MemRef 19 → Instr} {h : MemRef 18 → Instr} {w d : MemRef 17 → Instr}
    (hb : ∀ m, wellFormed (b m) = true) (hh : ∀ m, wellFormed (h m) = true) (hw : ∀ m, wellFormed (w m) = true)
    (hd : ∀ m, wellFormed (d m) = true) : wellFormed (f.typed b h w d) = true := by
  unfold WordFields.typed
  split
  · exact hb _
  · split
    · exact hh _
    · split
      · exact hd _
      · exact hw _

theorem wellFormed_typedWide (f : WordFields) {b : MemRef 19 → Instr} {h w : MemRef 18 → Instr}
    (hb : ∀ m, wellFormed (b m) = true) (hh : ∀ m, wellFormed (h m) = true) (hw : ∀ m, wellFormed (w m) = true) :
    wellFormed (f.typedWide b h w) = true := by
  unfold WordFields.typedWide
  split
  · exact hb _
  · split
    · exact hh _
    · exact hw _

/-- The word member of a floating-point pair is answered only where the C bits are not the doubleword member's. -/
theorem wellFormed_floating (f : WordFields) {w : MemRef 19 → Instr} {d : MemRef 17 → Instr}
    (hw : ∀ m, m.addr.extractLsb' 0 2 ≠ 0b10#2 → wellFormed (w m) = true) (hd : ∀ m, wellFormed (d m) = true) :
    wellFormed (f.floating w d) = true := by
  unfold WordFields.floating
  split
  · exact hd _
  · rename_i h
    refine hw _ ?_
    rw [WordFields.byteRef, extract_append_right]
    exact h

theorem wellFormed_of_decodeGroupC8 {f : WordFields} {i : Instr} (h : decodeGroupC8 f = some i) : wellFormed i = true := by
  unfold decodeGroupC8 at h
  repeat' split at h
  all_goals cases h <;> rfl

theorem wellFormed_of_decodeGroupF8 {f : WordFields} {i : Instr} (h : decodeGroupF8 f = some i) : wellFormed i = true := by
  unfold decodeGroupF8 at h
  split at h
  case h_1 =>
    cases h
    exact wellFormed_typed f (fun _ => rfl) (fun _ => rfl) (fun _ => rfl) (fun _ => rfl)
  all_goals cases h; rfl

theorem wellFormed_of_decodeGroupFC {f : WordFields} {i : Instr} (h : decodeGroupFC f = some i) : wellFormed i = true := by
  unfold decodeGroupFC at h
  split at h
  case h_8 => unfold decodeClassF at h; split at h <;> cases h <;> rfl
  all_goals cases h; rfl

theorem wellFormed_decodeGroupF4 (f : WordFields) : wellFormed (decodeGroupF4 f) = true := by
  unfold decodeGroupF4
  split <;> rfl

theorem wellFormed_of_decodeWordFields {f : WordFields} {i : Instr} (h : decodeWordFields f = some i) : wellFormed i = true := by
  unfold decodeWordFields at h
  split at h
  case h_1 => unfold decodeLmap at h; split at h <;> cases h; rfl
  case h_4 | h_5 | h_6 | h_7 | h_8 | h_14 | h_15 | h_16 | h_17 | h_18 | h_24 | h_25 | h_29 =>
    cases h
    exact wellFormed_typed f (fun _ => rfl) (fun _ => rfl) (fun _ => rfl) (fun _ => rfl)
  case h_19 | h_20 =>
    cases h
    exact wellFormed_typedWide f (fun _ => rfl) (fun _ => rfl) (fun _ => rfl)
  case h_27 | h_28 =>
    cases h
    split <;> exact wellFormed_floating f (fun _ hm => decide_eq_true hm) (fun _ => rfl)
  case h_21 => exact wellFormed_of_decodeGroupC8 h
  case h_30 | h_31 =>
    cases h
    split
    · rfl
    · rename_i hr; exact decide_eq_true hr
  case h_32 => cases h; exact wellFormed_decodeGroupF4 f
  case h_33 => exact wellFormed_of_decodeGroupF8 h
  case h_34 => exact wellFormed_of_decodeGroupFC h
  case h_13 => split at h <;> cases h; rfl
  all_goals cases h <;> rfl

theorem wellFormed_of_decode {c : Code} {i : Instr} (h : decode c = some i) : wellFormed i = true := by
  cases c with
  | half _ => exact wellFormed_of_decodeHalfFields h
  | word _ => exact wellFormed_of_decodeWordFields h

/-- Settles O1: the fields of a well-formed instruction decode to it, its word or halfword is cut into those fields
again, and its first halfword tells its length; no branch of the decoder answers an instruction that is not well formed. -/
theorem decodeEncodeRoundTrip : Obligations.DecodeEncodeRoundTrip :=
  ⟨fun _ h => ⟨decode_encode h, decodeBytes_bytes (decode_encode h)⟩, fun _ _ h => wellFormed_of_decode h⟩

end Sys2Proof
end

section
/-! PROOFS. The address word of a memory reference instruction, and the words the spec writes out (30_encoding.md R141). -/

namespace Sys2Proof

/-- Bits 0-8 of a word instruction, as a word. -/
def headWord (op : Nat) (r : Reg) : Word := BitVec.ofNat 32 (op * 2 ^ 26 + r.toNat * 2 ^ 23)

theorem headWord_eq (op : BitVec 6) (r : Reg) : headWord op.toNat r = op ++ r ++ 0#23 := by
  apply BitVec.eq_of_toNat_eq
  have ho := op.isLt
  have hr := r.isLt
  simp only [headWord, BitVec.toNat_ofNat, BitVec.toNat_append, Nat.zero_mod, Nat.or_zero]
  rw [← Nat.shiftLeft_add_eq_or_of_lt (by omega : r.toNat < 2 ^ 3), Nat.shiftLeft_eq, Nat.shiftLeft_eq]
  omega

/-- A field over zeros and zeros over a field, put together. -/
theorem append_zero_or {n m : Nat} (a : BitVec n) (b : BitVec m) : (a ++ 0#m) ||| (0#n ++ b) = a ++ b := by
  ext i hi
  simp only [BitVec.getElem_or, BitVec.getElem_append]
  split <;> simp

/-- A word instruction is its op code and register over its bits 9-31. -/
theorem WordFields.toWord_eq (f : WordFields) : f.toWord = headWord f.op.toNat f.r ||| f.fullRef.word := by
  obtain ⟨op, r, x, i, b, addr, c⟩ := f
  rw [headWord_eq]
  ext k hk
  simp only [toWord, fullRef, MemRef.word, BitVec.getElem_or, BitVec.getElem_append]
  grind

theorem encode_of_fields {i : Instr} {f : WordFields} (h : encodeFields i = .word f) :
    encode i = .word (headWord f.op.toNat f.r ||| f.fullRef.word) := by
  rw [encode, h, Fields.toCode, WordFields.toWord_eq]

/-! ## The address field of each member is its operand's -/

theorem WordFields.fullRef_byteMember (op : BitVec 6) (r : Reg) (m : MemRef 19) :
    (WordFields.byteMember op r m).fullRef = m.ofByte := by
  simp only [fullRef, byteMember, MemRef.ofByte, MemRef.mk.injEq, true_and]
  ext k hk
  simp only [BitVec.getElem_append, BitVec.getElem_extractLsb', BitVec.getElem_ofBool]
  grind

theorem WordFields.fullRef_halfMember (op : BitVec 6) (r : Reg) (m : MemRef 18) :
    (WordFields.halfMember op r m).fullRef = m.ofHalf := by
  simp only [fullRef, halfMember, MemRef.ofHalf, MemRef.mk.injEq, true_and]
  ext k hk
  simp only [BitVec.getElem_append, BitVec.getElem_extractLsb', BitVec.getElem_ofBool]
  grind

theorem WordFields.fullRef_wideMember (op : BitVec 6) (r : Reg) (m : MemRef 18) :
    (WordFields.wideMember op r m).fullRef = m.ofWide := by
  simp only [fullRef, wideMember, MemRef.ofWide, MemRef.mk.injEq, true_and]
  ext k hk
  simp only [BitVec.getElem_append, BitVec.getElem_extractLsb', BitVec.getElem_ofBool]
  grind

theorem WordFields.fullRef_floatWord (op : BitVec 6) (r : Reg) (f : Bool) (m : MemRef 19) :
    (WordFields.floatWord op r f m).fullRef = m.ofFixed f := by
  simp only [fullRef, floatWord, MemRef.ofFixed, MemRef.mk.injEq, true_and]
  ext k hk
  simp only [BitVec.getElem_append, BitVec.getElem_extractLsb', BitVec.getElem_ofBool]
  grind

section
variable {op : BitVec 6} {r : Reg}

theorem encode_whole {i : MemRef 20 → Instr} (h : ∀ m, encodeFields (i m) = .word (.fullMember op r m)) (m : MemRef 20) :
    encode (i m) = .word (headWord op.toNat r ||| m.word) := by
  rw [encode_of_fields (h m), WordFields.fullRef_fullMember]; rfl

theorem encode_byte {i : MemRef 19 → Instr} (h : ∀ m, encodeFields (i m) = .word (.byteMember op r m)) (m : MemRef 19) :
    encode (i m) = .word (headWord op.toNat r ||| m.ofByte.word) := by
  rw [encode_of_fields (h m), WordFields.fullRef_byteMember]; rfl

theorem encode_half {i : MemRef 18 → Instr} (h : ∀ m, encodeFields (i m) = .word (.halfMember op r m)) (m : MemRef 18) :
    encode (i m) = .word (headWord op.toNat r ||| m.ofHalf.word) := by
  rw [encode_of_fields (h m), WordFields.fullRef_halfMember]; rfl

theorem encode_word {i : MemRef 17 → Instr} (h : ∀ m, encodeFields (i m) = .word (.wordMember op r m)) (m : MemRef 17) :
    encode (i m) = .word (headWord op.toNat r ||| m.ofWord.word) := by
  rw [encode_of_fields (h m)]
  have e : (WordFields.wordMember op r m).fullRef = m.ofWord := rfl
  rw [e]; rfl

theorem encode_double {i : MemRef 17 → Instr} (h : ∀ m, encodeFields (i m) = .word (.doubleMember op r m)) (m : MemRef 17) :
    encode (i m) = .word (headWord op.toNat r ||| m.ofDouble.word) := by
  rw [encode_of_fields (h m)]
  have e : (WordFields.doubleMember op r m).fullRef = m.ofDouble := rfl
  rw [e]; rfl

theorem encode_wide {i : MemRef 18 → Instr} (h : ∀ m, encodeFields (i m) = .word (.wideMember op r m)) (m : MemRef 18) :
    encode (i m) = .word (headWord op.toNat r ||| m.ofWide.word) := by
  rw [encode_of_fields (h m), WordFields.fullRef_wideMember]; rfl

theorem encode_floatWord {f : Bool} {i : MemRef 19 → Instr} (h : ∀ m, encodeFields (i m) = .word (.floatWord op r f m))
    (m : MemRef 19) : encode (i m) = .word (headWord op.toNat r ||| (m.ofFixed f).word) := by
  rw [encode_of_fields (h m), WordFields.fullRef_floatWord]; rfl

theorem encode_floatDouble {f : Bool} {i : MemRef 17 → Instr} (h : ∀ m, encodeFields (i m) = .word (.floatDouble op r f m))
    (m : MemRef 17) : encode (i m) = .word (headWord op.toNat r ||| (m.ofFixedDouble f).word) := by
  rw [encode_of_fields (h m)]
  have e : (WordFields.floatDouble op r f m).fullRef = m.ofFixedDouble f := rfl
  rw [e]; rfl

end

/-- Settles O3: a word instruction is its head over the address word of its fields, and each member's address field is
that of its operand. -/
theorem addressWordIsEncodedBits : Obligations.AddressWordIsEncodedBits := by
  intro r head whole members wide floats
  have hwhole (op : BitVec 6) (r : Reg) (i : MemRef 20 → Instr) (h : ∀ m, encodeFields (i m) = .word (.fullMember op r m)) :
      whole op.toNat r i := encode_whole h
  have hmembers (op : BitVec 6) (r : Reg) {b : MemRef 19 → Instr} {h : MemRef 18 → Instr} {w d : MemRef 17 → Instr}
      (hb : ∀ m, encodeFields (b m) = .word (.byteMember op r m)) (hh : ∀ m, encodeFields (h m) = .word (.halfMember op r m))
      (hw : ∀ m, encodeFields (w m) = .word (.wordMember op r m)) (hd : ∀ m, encodeFields (d m) = .word (.doubleMember op r m)) :
      members op.toNat r b h w d := ⟨encode_byte hb, encode_half hh, encode_word hw, encode_double hd⟩
  have hwide (op : BitVec 6) {b : MemRef 19 → Instr} {h w : MemRef 18 → Instr}
      (hb : ∀ m, encodeFields (b m) = .word (.byteMember op r m)) (hh : ∀ m, encodeFields (h m) = .word (.halfMember op r m))
      (hw : ∀ m, encodeFields (w m) = .word (.wideMember op r m)) :
      wide op.toNat b h w := ⟨encode_byte hb, encode_half hh, encode_wide hw⟩
  have hfloats (op : BitVec 6) {f : Bool} {w : MemRef 19 → Instr} {d : MemRef 17 → Instr}
      (hw : ∀ m, encodeFields (w m) = .word (.floatWord op r f m)) (hd : ∀ m, encodeFields (d m) = .word (.floatDouble op r f m)) :
      floats op.toNat f w d := ⟨encode_floatWord hw, encode_floatDouble hd⟩
  refine ⟨hmembers 0x2B r ?_ ?_ ?_ ?_, hmembers 0x2C r ?_ ?_ ?_ ?_, hmembers 0x2D r ?_ ?_ ?_ ?_, hmembers 0x35 r ?_ ?_ ?_ ?_,
    hmembers 0x36 r ?_ ?_ ?_ ?_, hmembers 0x3E 0 ?_ ?_ ?_ ?_, hmembers 0x24 r ?_ ?_ ?_ ?_, hmembers 0x25 r ?_ ?_ ?_ ?_,
    hmembers 0x21 r ?_ ?_ ?_ ?_, hmembers 0x22 r ?_ ?_ ?_ ?_, hmembers 0x23 r ?_ ?_ ?_ ?_, hmembers 0x2E r ?_ ?_ ?_ ?_,
    hmembers 0x3A r ?_ ?_ ?_ ?_, hmembers 0x2F r ?_ ?_ ?_ ?_, hwide 0x30 ?_ ?_ ?_, hwide 0x31 ?_ ?_ ?_,
    hfloats 0x38 ?_ ?_, hfloats 0x38 ?_ ?_, hfloats 0x39 ?_ ?_, hfloats 0x39 ?_ ?_,
    hwhole 0x34 r _ ?_, hwhole 0x20 r _ ?_, hwhole 0x0D r _ ?_, hwhole 0x33 r _ ?_, hwhole 0x37 r _ ?_,
    hwhole 0x26 r _ ?_, hwhole 0x27 r _ ?_, hwhole 0x28 r _ ?_, hwhole 0x29 r _ ?_,
    hwhole 0x3B 0 _ ?_, hwhole 0x3B r _ ?_, hwhole 0x3C r _ ?_, hwhole 0x3C 0 _ ?_,
    hwhole 0x3E 1 _ ?_, hwhole 0x3E 2 _ ?_, hwhole 0x3E 3 _ ?_, hwhole 0x3E 4 _ ?_, hwhole 0x3E 5 _ ?_,
    encode_floatWord (op := 0x2A) (r := 0) ?_, ?branches⟩
  case branches =>
    intro ind a
    have h (x : BitVec 2) (i : Instr) (e : encodeFields i = .word (.fullMember 0x3D r ⟨x, ind, a⟩)) :
        encode i = .word (head 0x3D r ||| MemRef.word ⟨x, ind, a⟩) := by
      rw [encode_of_fields e, WordFields.fullRef_fullMember]; rfl
    exact ⟨h 0 _ rfl, h 1 _ rfl, h 2 _ rfl, h 3 _ rfl⟩
  all_goals exact fun _ => rfl

/-- Settles O2: each of the twelve words, cut into its fields. -/
theorem sampleWordsDecode : Obligations.SampleWordsDecode := by
  unfold Obligations.SampleWordsDecode
  decide

end Sys2Proof
end

section
/-! PROOFS. What an instruction may change: relations between the state before and after it, closed under the shared
operations, and the ordinary instructions by these alone. -/

namespace Sys2Proof.Machine

/-! ## Outcomes up to a relation -/

/-- What an instruction answers from `s`, with every state it reaches in the relation `R` to `s`: its next state, the
state in which it raises a trap, or that in which it halts as by one (BRI's PSW fetch, 60_exceptions.md R671). -/
inductive Ends (R : State → State → Prop) (s : State) : Outcome → Prop
  | next {t : State} (h : R s t) : Ends R s (.next t)
  | raised (x : Trap) {u : State} (h : R s u) : Ends R s (raise x u)
  | halted (x : Trap) (bits : Word) (v : Addr) {u : State} (h : R s u) :
    Ends R s (.next (((u.abandon x).orStatus bits).trapHalt v))
  | fault (f : Fault) : Ends R s (.fault f)

/-- The same of an operation inside an instruction. -/
inductive Yields {α : Type} (R : State → State → Prop) (s : State) : Res α → Prop
  | ok (a : α) {t : State} (h : R s t) : Yields R s (.ok a t)
  | trap (x : Trap) {t : State} (h : R s t) : Yields R s (.trap x t)
  | stuck (f : Fault) : Yields R s (.stuck f)

/-- A relation that the operations of an instruction without effect on memory respect: the registers and marks, the
arithmetic exception, and what bus agents do before a transaction. -/
structure Reading (R : State → State → Prop) : Prop where
  refl : ∀ s, R s s
  trans : ∀ {s t u}, R s t → R t u → R s u
  marks : ∀ (s : State) (regs : Vector Word 8) (cc : BitVec 4) (pc : BitVec 18) (noHalt stopHit : Bool) (freeIx : Nat),
    R s { s with regs := regs, cc := cc, pc := pc, noHalt := noHalt, stopHit := stopHit, freeIx := freeIx }
  arith : ∀ (s : State) (ae : Bool), R s (s.arithException ae)
  transact : ∀ s : State, R s s.transact

/-- A relation that a byte stored and the memory word lock respect as well. -/
structure Storing (R : State → State → Prop) : Prop extends Reading R where
  poke8 : ∀ (s : State) (a : Addr) (b : Byte), R s (s.poke8 a b)
  lock : ∀ {s t : State}, R { s with memLock := true } t → R s { t with memLock := false }
  relock : ∀ {s : State}, s.memLock = true → R s s.relock

section
variable {R : State → State → Prop} {s t : State} {α β : Type}

theorem Ends.of_rel (h : Reading R) (st : R s t) {o : Outcome} : Ends R t o → Ends R s o
  | .next tu => .next (h.trans st tu)
  | .raised x tu => .raised x (h.trans st tu)
  | .halted x b v tu => .halted x b v (h.trans st tu)
  | .fault f => .fault f

theorem Yields.of_rel (h : Reading R) (st : R s t) {x : Res α} : Yields R t x → Yields R s x
  | .ok a tu => .ok a (h.trans st tu)
  | .trap x tu => .trap x (h.trans st tu)
  | .stuck f => .stuck f

/-- The rest of an instruction after an operation. -/
theorem Yields.finish (h : Reading R) {x : Res α} {k : α → State → Outcome} (hx : Yields R s x)
    (hk : ∀ a t, Ends R t (k a t)) : Ends R s (x.finish k) := by
  cases hx with
  | ok a st => exact Ends.of_rel h st (hk a _)
  | trap x st => exact .raised x st
  | stuck f => exact .fault f

theorem Yields.bind (h : Reading R) {x : Res α} {k : α → State → Res β} (hx : Yields R s x)
    (hk : ∀ a t, Yields R t (k a t)) : Yields R s (x.bind k) := by
  cases hx with
  | ok a st => exact Yields.of_rel h st (hk a _)
  | trap x st => exact .trap x st
  | stuck f => exact .stuck f

/-! ## The checks before an instruction -/

theorem Ends.psdOnly (h : Reading R) {k : Outcome} (hk : s.mode = .psd → Ends R s k) : Ends R s (psdOnly s k) := by
  cases e : s.mode with
  | psd => rw [psdOnly_psd e]; exact hk e
  | psw => rw [psdOnly_psw e]; exact .raised _ (h.refl s)

theorem Ends.cpuOnly (h : Reading R) {k : Outcome} (hk : Ends R s k) : Ends R s (cpuOnly s k) := by
  cases e : s.cfg.role with
  | cpu => rw [cpuOnly_cpu e]; exact hk
  | ipu => rw [cpuOnly_ipu e]; exact .raised _ (h.refl s)

theorem Ends.privileged (h : Reading R) {k : Outcome} (hk : Ends R s k) : Ends R s (privileged s k) := by
  cases e : s.priv with
  | true => rw [privileged_yes e]; exact hk
  | false => rw [privileged_no e]; exact .raised _ (h.refl s)

end

/-! ## Registers, flags and marks -/

namespace Reading
variable {R : State → State → Prop} (h : Reading R) (s : State)
include h

theorem setReg (r : Reg) (v : Word) : R s (s.setReg r v) :=
  h.marks s _ s.cc s.pc s.noHalt s.stopHit s.freeIx

theorem setCc (v : BitVec 4) : R s (s.setCc v) :=
  h.marks s s.regs v s.pc s.noHalt s.stopHit s.freeIx

theorem setRegPair (r : Reg) (v : Double) : R s (s.setRegPair r v) :=
  h.trans (h.setReg s _ _) (h.setReg _ _ _)

theorem setRegCc (r : Reg) (v : Word) : R s (s.setRegCc r v) :=
  h.trans (h.setReg s _ _) (h.setCc _ _)

theorem setArith {n : Nat} (ae : Bool) (v : BitVec n) : R s (s.setArith ae v) :=
  h.trans (h.setCc s _) (h.arith _ _)

theorem noteRead (pa : Addr) : R s (s.noteRead pa) :=
  h.marks s s.regs s.cc s.pc s.noHalt _ s.freeIx

theorem noteWrite (pa : Addr) : R s (s.noteWrite pa) :=
  h.marks s s.regs s.cc s.pc s.noHalt _ s.freeIx

theorem setFreeCc (b : Bool) : R s (s.setFreeCc b) :=
  h.marks s s.regs _ s.pc s.noHalt s.stopHit _

theorem setFp {n : Nat} (x : FpResult n) : R s (s.setFp x) :=
  h.trans (h.setCc s _) (h.arith _ _)

theorem shiftArith (ae : Bool) : R s (s.shiftArith ae) :=
  h.trans (h.setCc s _) (h.arith _ _)

theorem branch (ind : Bool) (e : Effective) : R s (s.branch ind e) :=
  h.marks s s.regs _ _ s.noHalt s.stopHit s.freeIx

/-! ## Reading memory -/

theorem load8 (a : Addr) : Yields R s (s.load8 a) := by
  cases e : s.transact.locate .read a 1 with
  | ok pa => rw [State.load8_eq e]; exact .ok _ (h.trans (h.transact s) (h.noteRead _ pa))
  | error t => rw [State.load8_error e]; exact .trap _ (h.transact s)

theorem load16 (a : Addr) : Yields R s (s.load16 a) := by
  cases e : s.transact.locate .read a 2 with
  | ok pa => rw [State.load16_eq e]; exact .ok _ (h.trans (h.transact s) (h.noteRead _ pa))
  | error t => rw [State.load16_error e]; exact .trap _ (h.transact s)

theorem load32 (a : Addr) : Yields R s (s.load32 a) := by
  cases e : s.transact.locate .read a 4 with
  | ok pa => rw [State.load32_eq e]; exact .ok _ (h.trans (h.transact s) (h.noteRead _ pa))
  | error t => rw [State.load32_error e]; exact .trap _ (h.transact s)

theorem load64 (a : Addr) : Yields R s (s.load64 a) :=
  (h.load32 s _).bind h fun _ t => (h.load32 t _).bind h fun _ u => .ok _ (h.refl u)

theorem addressLoop : ∀ (n : Nat) (w : Word) (s : State), Yields R s (State.addressLoop n w s)
  | 0, _, _ => .stuck _
  | n + 1, w, s => by
    unfold State.addressLoop
    split
    · exact (h.load32 s _).bind h fun w' t => addressLoop n w' t
    · exact .ok _ (h.refl s)

theorem effective (w : Word) : Yields R s (s.effective w) := h.addressLoop _ w s

end Reading

/-! ## Instructions of a memory operand -/

/-- Each member of a family ends in the relation. -/
structure Members.End (m : Members) (R : State → State → Prop) : Prop where
  byte : ∀ a s, Ends R s (m.byte a s)
  half : ∀ a s, Ends R s (m.half a s)
  word : ∀ a s, Ends R s (m.word a s)
  double : ∀ a s, Ends R s (m.double a s)

namespace Reading
variable {R : State → State → Prop} (h : Reading R)
include h

theorem withOperand {m : Members} (hm : m.End R) (w : Word) (s : State) : Ends R s (withOperand w m s) :=
  (h.effective s w).finish h fun e t => by
    cases e.operand with
    | byte a => exact hm.byte a t
    | half a => exact hm.half a t
    | word a => exact hm.word a t
    | double a => exact hm.double a t

theorem withWord {k : Addr → State → Outcome} (hk : ∀ a s, Ends R s (k a s)) (w : Word) (s : State) :
    Ends R s (withWord w k s) :=
  (h.effective s w).finish h fun _ t => hk _ t

theorem withByte {k : Addr → State → Outcome} (hk : ∀ a s, Ends R s (k a s)) (m : MemRef 20) (s : State) :
    Ends R s (withByte m k s) :=
  (h.effective s m.word).finish h fun e t => by
    show Ends R t (if e.ef then k e.ea t else raise .undefined t)
    split
    · exact hk _ t
    · exact .raised _ (h.refl t)

theorem noMember (a : Addr) (s : State) : Ends R s (noMember a s) := .raised _ (h.refl s)

theorem loadDoubleMasked (k : Word) (r : Reg) (a : Addr) (s : State) : Ends R s (loadDoubleMasked k r a s) :=
  (h.load32 s _).finish h fun _ t => Ends.of_rel h (h.setReg t _ _)
    ((h.load32 _ _).finish h fun _ u => .next (h.trans (h.setReg u _ _) (h.setCc _ _)))

theorem loadMembers (r : Reg) : (loadMembers r).End R where
  byte a s := (h.load8 s a).finish h fun _ t => .next (h.setRegCc t r _)
  half a s := (h.load16 s a).finish h fun _ t => .next (h.setRegCc t r _)
  word a s := (h.load32 s a).finish h fun _ t => .next (h.setRegCc t r _)
  double := h.loadDoubleMasked _ r

theorem loadMaskedMembers (r : Reg) : (loadMaskedMembers r).End R where
  byte a s := (h.load8 s a).finish h fun _ t => .next (h.setRegCc t r _)
  half a s := (h.load16 s a).finish h fun _ t => .next (h.setRegCc t r _)
  word a s := (h.load32 s a).finish h fun _ t => .next (h.setRegCc t r _)
  double a s := h.loadDoubleMasked _ r a s

theorem loadNegMembers (r : Reg) : (loadNegMembers r).End R where
  byte a s := (h.load8 s a).finish h fun _ t => .next (h.setRegCc t r _)
  half a s := (h.load16 s a).finish h fun _ t => .next (h.setRegCc t r _)
  word a s := (h.load32 s a).finish h fun _ t => .next (h.trans (h.setReg t r _) (h.setArith _ _ _))
  double a s := (h.load64 s a).finish h fun _ t => .next (h.trans (h.setRegPair t r _) (h.setArith _ _ _))

theorem compareMembers (r : Reg) : (compareMembers r).End R where
  byte a s := (h.load8 s a).finish h fun _ t => .next (h.setCc t _)
  half a s := (h.load16 s a).finish h fun _ t => .next (h.setCc t _)
  word a s := (h.load32 s a).finish h fun _ t => .next (h.setCc t _)
  double a s := (h.load64 s a).finish h fun _ t => .next (h.setCc t _)

theorem compareMaskedMembers (r : Reg) : (compareMaskedMembers r).End R where
  byte a s := (h.load8 s a).finish h fun _ t => .next (h.setCc t _)
  half a s := (h.load16 s a).finish h fun _ t => .next (h.setCc t _)
  word a s := (h.load32 s a).finish h fun _ t => .next (h.setCc t _)
  double a s := (h.load64 s a).finish h fun _ t => .next (h.setCc t _)

theorem logicMembers (op : LogicOp) (r : Reg) : (logicMembers op r).End R where
  byte a s := (h.load8 s a).finish h fun _ t => .next (h.trans (h.setReg t r _) (h.setCc _ _))
  half a s := (h.load16 s a).finish h fun _ t => .next (h.trans (h.setReg t r _) (h.setCc _ _))
  word a s := (h.load32 s a).finish h fun _ t => .next (h.trans (h.setReg t r _) (h.setCc _ _))
  double _ s := (h.load32 s _).finish h fun _ t => Ends.of_rel h (h.setReg t _ _)
    ((h.load32 _ _).finish h fun _ u => .next (h.trans (h.setReg u _ _) (h.setCc _ _)))

theorem wordMembers {k : Word → State → State} (hk : ∀ v s, R s (k v s)) : (wordMembers k).End R where
  byte a s := (h.load8 s a).finish h fun _ t => .next (hk _ t)
  half a s := (h.load16 s a).finish h fun _ t => .next (hk _ t)
  word a s := (h.load32 s a).finish h fun _ t => .next (hk _ t)
  double := h.noMember

theorem addTo (r : Reg) (b : Word) (s : State) : R s (addTo r b s) := h.trans (h.setReg s _ _) (h.setArith _ _ _)

theorem subFrom (r : Reg) (b : Word) (s : State) : R s (subFrom r b s) := h.trans (h.setReg s _ _) (h.setArith _ _ _)

theorem maskedSum (d : Reg) (ae : Bool) (v : Word) (s : State) : R s (maskedSum d ae v s) :=
  h.trans (h.setReg s _ _) (h.setArith _ _ _)

theorem multiplyBy (r : Reg) (m : Word) (s : State) : R s (multiplyBy r m s) :=
  h.trans (h.setRegPair s _ _) (h.setCc _ _)

theorem divideBy (r : Reg) (m : Word) (s : State) : R s (divideBy r m s) := by
  unfold Machine.divideBy
  split
  · exact h.setArith s _ _
  · exact h.trans (h.trans (h.setReg s _ _) (h.setReg _ _ _)) (h.setCc _ _)

theorem addMembers (r : Reg) : (addMembers r).End R :=
  { h.wordMembers (h.addTo r) with
    double := fun a s => (h.load64 s a).finish h fun _ t => .next (h.trans (h.setRegPair t r _) (h.setArith _ _ _)) }

theorem subMembers (r : Reg) : (subMembers r).End R :=
  { h.wordMembers (h.subFrom r) with
    double := fun a s => (h.load64 s a).finish h fun _ t => .next (h.trans (h.setRegPair t r _) (h.setArith _ _ _)) }

theorem fpExec (op : FpOp) (r : Reg) (w : Word) (s : State) : Ends R s (fpExec op r w s) :=
  (h.effective s w).finish h fun e t => by
    show Ends R t (if e.ea.extractLsb' 0 2 = 0b00#2 then fpWord op r (wordAddr e.ea) t
      else if e.ea.extractLsb' 0 2 = 0b10#2 then fpDouble op r (doubleAddr e.ea) t else raise .undefined t)
    split
    · exact (h.load32 t _).finish h fun _ u => .next (h.trans (h.setReg u _ _) (h.setFp _ _))
    · split
      · exact (h.load64 t _).finish h fun _ u => .next (h.trans (h.setRegPair u _ _) (h.setFp _ _))
      · exact .raised _ (h.refl t)

theorem loadFile : ∀ (n : Nat) (k : Reg) (a : Addr) (s : State), Ends R s (loadFile n k a s)
  | 0, _, _, s => .next (h.refl s)
  | n + 1, _, _, s => (h.load32 s _).finish h fun _ t => Ends.of_rel h (h.setReg t _ _) (loadFile n _ _ _)

/-! ## Register forms and branches -/

theorem transfer (d : Reg) (v : Word) (s : State) : R s (transfer d v s) := h.trans (h.setReg s _ _) (h.setCc _ _)

theorem transferNegative (d : Reg) (a k : Word) (s : State) : R s (transferNegative d a k s) :=
  h.trans (h.setReg s _ _) (h.setArith _ _ _)

theorem exchange (sr d : Reg) (a b : Word) (s : State) : R s (exchange sr d a b s) :=
  h.trans (h.trans (h.setReg s _ _) (h.setReg _ _ _)) (h.setCc _ _)

theorem logicReg (op : LogicOp) (sr d : Reg) (k : Word) (s : State) : Ends R s (logicReg op sr d k s) :=
  .next (h.trans (h.setReg s _ _) (h.setCc _ _))

theorem takeBranch (m : MemRef 20) (s : State) : Ends R s (takeBranch m s) :=
  (h.effective s m.word).finish h fun _ t => .next (h.branch t _ _)

theorem branchIf (c : Bool) (m : MemRef 20) (s : State) : Ends R s (branchIf c m s) := by
  unfold Machine.branchIf
  split
  · exact h.takeBranch m s
  · exact .next (h.refl s)

theorem branchIncrement (k : Word) (r : Reg) (ind : Bool) (a : BitVec 20) (s : State) :
    Ends R s (branchIncrement k r ind a s) :=
  Ends.of_rel h (h.marks s (s.setReg r (s.reg r + k)).regs s.cc s.pc true s.stopHit s.freeIx) (h.branchIf _ _ _)

/-- Every ordinary instruction that stores nothing. -/
theorem exec {i : Instr} (hi : isOrdinary i = true) (hs : mayStore i = false) (s : State) : Ends R s (exec i s) := by
  cases i
  case lb | lh | lw | ld => exact h.withOperand (h.loadMembers _) _ s
  case lmb | lmh | lmw | lmd => exact h.withOperand (h.loadMaskedMembers _) _ s
  case lnb | lnh | lnw | lnd => exact h.withOperand (h.loadNegMembers _) _ s
  case li => exact .next (h.setRegCc s _ _)
  case lea => exact (h.effective s _).finish h fun _ t => .next (h.setReg t _ _)
  case la => exact Ends.psdOnly h fun _ => (h.effective s _).finish h fun _ t => .next (h.setReg t _ _)
  case lf => exact h.withWord (h.loadFile _ _) _ s
  case zr => exact .next (h.setRegCc s _ _)
  case trr | trrm | trc | trcm => exact .next (h.transfer _ _ s)
  case trn | trnm => exact .next (h.transferNegative _ _ _ s)
  case xcr | xcrm => exact .next (h.exchange _ _ _ _ s)
  case tpr => exact .next (h.setReg s _ _)
  case trsw => exact .next (h.marks s s.regs _ _ s.noHalt s.stopHit s.freeIx)
  case bu => exact h.takeBranch _ s
  case bct | bcf | bft => exact h.branchIf _ _ s
  case bl => exact (h.effective s _).finish h fun _ t => .next (h.trans (h.setReg t _ _) (h.branch _ _ _))
  case bib | bih | biw | bid => exact h.branchIncrement _ _ _ _ s
  case camb | camh | camw | camd => exact h.withOperand (h.compareMembers _) _ s
  case cmmb | cmmh | cmmw | cmmd => exact h.withOperand (h.compareMaskedMembers _) _ s
  case car | ci | cmr => exact .next (h.setCc s _)
  case anmb | anmh | anmw | anmd | ormb | ormh | ormw | ormd | eomb | eomh | eomw | eomd =>
    exact h.withOperand (h.logicMembers _ _) _ s
  case anr | orr | orrm | eor | eorm => exact h.logicReg _ _ _ _ s
  case nor => exact .next (h.trans (h.setReg s _ _) (h.setReg _ _ _))
  case nord => exact .next (h.trans (h.setRegPair s _ _) (h.setReg _ _ _))
  case scz => exact .next (h.trans (h.trans (h.setReg s _ _) (h.setReg _ _ _)) (h.setCc _ _))
  case sla => exact .next (h.trans (h.setReg s _ _) (h.shiftArith _ _))
  case slad => exact .next (h.trans (h.setRegPair s _ _) (h.shiftArith _ _))
  case sll | slc | sra | srl | src => exact .next (h.setReg s _ _)
  case slld | srad | srld => exact .next (h.setRegPair s _ _)
  case sbr | zbr => exact .next (h.trans (h.setReg s _ _) (h.setCc _ _))
  case abr => exact .next (h.trans (h.setReg s _ _) (h.setArith _ _ _))
  case tbr => exact .next (h.setCc s _)
  case tbm =>
    show Ends R s (execTbm _ _ s)
    unfold execTbm
    refine h.withByte (fun a t => ?_) _ s
    exact (h.load8 t a).finish h fun _ u => .next (h.setCc u _)
  case admb | admh | admw | admd => exact h.withOperand (h.addMembers _) _ s
  case sumb | sumh | sumw | sumd => exact h.withOperand (h.subMembers _) _ s
  case adr | adi | rnd => exact .next (h.addTo _ _ s)
  case sur | sui => exact .next (h.subFrom _ _ s)
  case adrm | surm => exact .next (h.maskedSum _ _ _ s)
  case mpmb | mpmh | mpmw => exact h.withOperand (h.wordMembers (h.multiplyBy _)) _ s
  case dvmb | dvmh | dvmw => exact h.withOperand (h.wordMembers (h.divideBy _)) _ s
  case mpr | mpi => exact .next (h.multiplyBy _ _ s)
  case dvr | dvi => exact .next (h.divideBy _ _ s)
  case es => exact .next (h.trans (h.setReg s _ _) (h.setCc _ _))
  case adfw | adfd | sufw | sufd | mpfw | mpfd | dvfw | dvfd => exact h.fpExec _ _ _ s
  case lcs => exact .next (h.trans (h.setReg s _ _) (h.setCc _ _))
  case nop => exact .next (h.refl s)
  all_goals first | exact Bool.noConfusion hi | exact Bool.noConfusion hs

end Reading

/-! ## Instructions that store -/

namespace Storing
variable {R : State → State → Prop} (h : Storing R)
include h

theorem poke16 (s : State) (a : Addr) (v : Half) : R s (s.poke16 a v) := h.trans (h.poke8 s _ _) (h.poke8 _ _ _)

theorem poke32 (s : State) (a : Addr) (v : Word) : R s (s.poke32 a v) := h.trans (h.poke16 s _ _) (h.poke16 _ _ _)

theorem busWrites : ∀ (l : List (Addr × Byte)) (s : State), R s (s.busWrites l)
  | [], s => h.refl s
  | (a, b) :: l, s => by
    have first : R s (s.busWrite a b) := by
      unfold State.busWrite
      split
      · exact h.poke8 s a b
      · exact h.refl s
    exact h.trans first (busWrites l _)

theorem store8 (s : State) (a : Addr) (v : Byte) : Yields R s (s.store8 a v) := by
  cases e : s.transact.locate .write a 1 with
  | ok pa => rw [State.store8_eq e]; exact .ok _ (h.trans (h.trans (h.transact s) (h.poke8 _ pa v)) (h.noteWrite _ pa))
  | error t => rw [State.store8_error e]; exact .trap _ (h.transact s)

theorem store16 (s : State) (a : Addr) (v : Half) : Yields R s (s.store16 a v) := by
  cases e : s.transact.locate .write a 2 with
  | ok pa => rw [State.store16_eq e]; exact .ok _ (h.trans (h.trans (h.transact s) (h.poke16 _ pa v)) (h.noteWrite _ pa))
  | error t => rw [State.store16_error e]; exact .trap _ (h.transact s)

theorem store32 (s : State) (a : Addr) (v : Word) : Yields R s (s.store32 a v) := by
  cases e : s.transact.locate .write a 4 with
  | ok pa => rw [State.store32_eq e]; exact .ok _ (h.trans (h.trans (h.transact s) (h.poke32 _ pa v)) (h.noteWrite _ pa))
  | error t => rw [State.store32_error e]; exact .trap _ (h.transact s)

theorem store64 (s : State) (a : Addr) (v : Double) : Yields R s (s.store64 a v) :=
  (h.store32 s _ _).bind h.toReading fun _ t => h.store32 t _ _

theorem storeMembers (v : Double) : (storeMembers v).End R where
  byte a s := (h.store8 s a _).finish h.toReading fun _ t => .next (h.refl t)
  half a s := (h.store16 s a _).finish h.toReading fun _ t => .next (h.refl t)
  word a s := (h.store32 s a _).finish h.toReading fun _ t => .next (h.refl t)
  double a s := (h.store64 s a _).finish h.toReading fun _ t => .next (h.refl t)

theorem storeFamily (r : Reg) : (storeFamily r).End R where
  byte a s := (h.storeMembers (BitVec.zeroExtend 64 (s.reg r))).byte a s
  half a s := (h.storeMembers (BitVec.zeroExtend 64 (s.reg r))).half a s
  word a s := (h.storeMembers (BitVec.zeroExtend 64 (s.reg r))).word a s
  double a s := (h.storeMembers (s.regPair r)).double a s

theorem storeMaskedFamily (r : Reg) : (storeMaskedFamily r).End R where
  byte a s := (h.storeMembers (BitVec.zeroExtend 64 (s.reg r &&& s.mask))).byte a s
  half a s := (h.storeMembers (BitVec.zeroExtend 64 (s.reg r &&& s.mask))).half a s
  word a s := (h.storeMembers (BitVec.zeroExtend 64 (s.reg r &&& s.mask))).word a s
  double a s := (h.storeMembers (s.regPair r &&& s.maskPair)).double a s

theorem storeFile : ∀ (n : Nat) (k : Reg) (a : Addr) (s : State), Ends R s (storeFile n k a s)
  | 0, _, _, s => .next (h.refl s)
  | n + 1, _, _, s => (h.store32 s _ _).finish h.toReading fun _ _ => storeFile n _ _ _

/-! ## Read-modify-write -/

/-- A locked operation, from what it does while it holds the lock. -/
theorem withLock {α : Type} {f : State → Res α} {s : State}
    (hf : ∀ t : State, t.memLock = true → Yields R t (f t)) : Yields R s (withLock f s) := by
  unfold Machine.withLock
  have hy := hf { s.transact with memLock := true } rfl
  split
  · rename_i a t e
    rw [e] at hy
    cases hy with | ok _ ht => exact .ok _ (h.trans (h.transact s) (h.lock ht))
  · rename_i x t e
    rw [e] at hy
    cases hy with | trap _ ht => exact .trap _ (h.trans (h.transact s) (h.lock ht))
  · exact .stuck _

theorem modify8 (s : State) (a : Addr) (f : Byte → Byte) : Yields R s (s.modify8 a f) :=
  h.withLock fun t _ => (h.load8 t _).bind h.toReading fun _ u => (h.store8 u _ _).bind h.toReading fun _ v => .ok _ (h.refl v)

theorem modify16 (s : State) (a : Addr) (f : Half → Half) : Yields R s (s.modify16 a f) :=
  h.withLock fun t _ => (h.load16 t _).bind h.toReading fun _ u => (h.store16 u _ _).bind h.toReading fun _ v => .ok _ (h.refl v)

theorem modify32 (s : State) (a : Addr) (f : Word → Word) : Yields R s (s.modify32 a f) :=
  h.withLock fun t _ => (h.load32 t _).bind h.toReading fun _ u => (h.store32 u _ _).bind h.toReading fun _ v => .ok _ (h.refl v)

theorem modify64 (s : State) (a : Addr) (f : Double → Double) : Yields R s (s.modify64 a f) := by
  refine h.withLock fun t hl => ?_
  have first := h.load32 t (a + 4)
  cases e : t.load32 (a + 4) with
  | trap x u => rw [e] at first; cases first with | trap _ hu => exact .trap _ hu
  | stuck x => exact .stuck _
  | ok lo s1 =>
    rw [e] at first
    cases first with | ok _ h1 => ?_
    obtain ⟨pa, -, -, rfl⟩ := State.load32_ok e
    have lock1 : (t.transact.noteRead pa).memLock = true := by
      rw [State.noteRead_memLock, State.transact_memLock, hl]
    refine Yields.of_rel h.toReading (h.trans h1 (h.relock lock1)) ?_
    exact (h.load32 _ a).bind h.toReading fun hi s2 => (h.store32 s2 _ _).bind h.toReading fun _ s3 =>
      Yields.of_rel h.toReading (h.busWrites _ s3) ((h.store32 _ _ _).bind h.toReading fun _ s4 => .ok _ (h.refl s4))

theorem modifyBit (f : Byte → Byte) (c : BitVec 3) (a : Addr) (s : State) : Ends R s (modifyBit f c a s) :=
  (h.modify8 s a f).finish h.toReading fun _ t => .next (h.setCc t _)

theorem addRegMembers (r : Reg) : (addRegMembers r).End R where
  byte a s := (h.modify8 s a _).finish h.toReading fun _ t => .next (h.setFreeCc t _)
  half a s := (h.modify16 s a _).finish h.toReading fun _ t => .next (h.setFreeCc t _)
  word a s := (h.modify32 s a _).finish h.toReading fun _ t => .next (h.setArith t _ _)
  double a s := (h.modify64 s a _).finish h.toReading fun _ t => .next (h.setArith t _ _)

/-- Every ordinary instruction. -/
theorem exec {i : Instr} (hi : isOrdinary i = true) (s : State) : Ends R s (exec i s) := by
  cases hs : mayStore i with
  | false => exact h.toReading.exec hi hs s
  | true =>
    have r := h.toReading
    cases i
    case stb | sth | stw | std => exact r.withOperand (h.storeFamily _) _ s
    case stmb | stmh | stmw | stmd => exact r.withOperand (h.storeMaskedFamily _) _ s
    case stf => exact r.withWord (h.storeFile _ _) _ s
    case zmb | zmh | zmw | zmd => exact r.withOperand (h.storeMembers _) _ s
    case sbm | zbm => exact r.withByte (h.modifyBit _ _) _ s
    case abm =>
      show Ends R s (execAbm _ _ s)
      unfold execAbm
      refine r.withByte (fun a t => ?_) _ s
      exact (h.modify32 t _ _).finish r fun _ u => .next (h.setArith u _ _)
    case armb | armh | armw | armd => exact r.withOperand (h.addRegMembers _) _ s
    all_goals first | exact Bool.noConfusion hi | exact Bool.noConfusion hs

end Storing

end Sys2Proof.Machine
end

section
/-! PROOFS. What no trap, entry or instruction breaks: the configuration, the canonical form of memory, the legal modes and
the rest between steps (60_exceptions.md R622, R653, R681). -/

namespace Sys2Proof.Machine

/-- The fields that the invariants and the privileged state rest on are as before. -/
structure SameCore (s t : State) : Prop where
  cfg : t.cfg = s.cfg := by rfl
  mode : t.mode = s.mode := by rfl
  priv : t.priv = s.priv := by rfl
  mem : t.mem = s.mem := by rfl
  wcs : t.wcs = s.wcs := by rfl
  bus : t.bus = s.bus := by rfl
  memLock : t.memLock = s.memLock := by rfl
  psd2 : t.psd2 = s.psd2 := by rfl
  mapped : t.mapped = s.mapped := by rfl
  execDepth : t.execDepth = s.execDepth := by rfl
  abandoned : t.abandoned = s.abandoned := by rfl

/-- The configuration is the same, and each part of the machine's invariant that held still holds. -/
structure Sound (s t : State) : Prop where
  cfg : t.cfg = s.cfg
  memory : s.MemoryInv → t.MemoryInv
  modes : s.ModeInv → t.ModeInv
  lock : t.memLock = s.memLock ∨ t.memLock = false
  word2 : s.psd2 &&& 0x0001C000 = 0 → t.psd2 &&& 0x0001C000 = 0
  depth : s.execDepth = false → t.execDepth = false

/-- The control mode is the same as well, and an abandoned instruction stays one. -/
structure Stays (s t : State) : Prop extends Sound s t where
  mode : t.mode = s.mode
  abandoned : s.abandoned = true → t.abandoned = true

theorem Sound.refl (s : State) : Sound s s := ⟨rfl, id, id, .inl rfl, id, id⟩

theorem Sound.trans {s t u : State} (h : Sound s t) (k : Sound t u) : Sound s u where
  cfg := k.cfg.trans h.cfg
  memory := k.memory ∘ h.memory
  modes := k.modes ∘ h.modes
  lock := by
    rcases k.lock with e | e
    · rw [e]; exact h.lock
    · exact .inr e
  word2 := k.word2 ∘ h.word2
  depth := k.depth ∘ h.depth

theorem Stays.refl (s : State) : Stays s s := ⟨Sound.refl s, rfl, id⟩

theorem Stays.trans {s t u : State} (h : Stays s t) (k : Stays t u) : Stays s u :=
  ⟨h.toSound.trans k.toSound, k.mode.trans h.mode, k.abandoned ∘ h.abandoned⟩

theorem Stays.of_core {s t : State} (h : SameCore s t) : Stays s t where
  cfg := h.cfg
  memory hs := by unfold State.MemoryInv; rw [h.mem, h.wcs]; exact hs
  modes hs := by unfold State.ModeInv; rw [h.cfg, h.mode, h.mapped]; exact hs
  lock := .inl h.memLock
  word2 hs := by rw [h.psd2]; exact hs
  depth hs := by rw [h.execDepth]; exact hs
  mode := h.mode
  abandoned hs := by rw [h.abandoned]; exact hs

/-- New contents of memory in the canonical form. -/
theorem Stays.of_memory {s t : State} (hm : Memory.wf s.mem = true → Memory.wf t.mem = true)
    (h : SameCore s { t with mem := s.mem, bus := s.bus }) : Stays s t where
  cfg := h.cfg
  memory hs := ⟨hm hs.1, by have e : t.wcs = s.wcs := h.wcs; rw [e]; exact hs.2⟩
  modes := (Stays.of_core h).modes
  lock := .inl h.memLock
  word2 := (Stays.of_core h).word2
  depth := (Stays.of_core h).depth
  mode := h.mode
  abandoned := (Stays.of_core h).abandoned

theorem Stays.poke8 (s : State) (a : Addr) (b : Byte) : Stays s (s.poke8 a b) := .of_memory State.poke8_wf {}

theorem Stays.transact (s : State) : Stays s s.transact := by
  refine .of_memory State.transact_wf ?_
  rw [State.transact_frame]
  exact {}

theorem Stays.lock_freed {s t : State} (h : Stays { s with memLock := true } t) : Stays s { t with memLock := false } where
  cfg := h.cfg
  memory := h.memory
  modes := h.modes
  lock := .inr rfl
  word2 := h.word2
  depth := h.depth
  mode := h.mode
  abandoned := h.abandoned

theorem Stays.lock_taken {s t : State} (hl : s.memLock = true) (h : Stays { s with memLock := false } t) :
    Stays s { t with memLock := true } where
  cfg := h.cfg
  memory := h.memory
  modes := h.modes
  lock := .inl hl.symm
  word2 := h.word2
  depth := h.depth
  mode := h.mode
  abandoned := h.abandoned

theorem stays_storing : Storing Stays where
  refl := Stays.refl
  trans := Stays.trans
  marks _ _ _ _ _ _ _ := .of_core {}
  arith _ _ := .of_core {}
  transact := Stays.transact
  poke8 := Stays.poke8
  lock := Stays.lock_freed
  relock hl := Stays.lock_taken hl (Stays.transact _)

theorem Stays.realWriteOrLose (s : State) (a : Addr) (v : Word) : Stays s (s.realWriteOrLose a v) := by
  unfold State.realWriteOrLose
  split
  · exact stays_storing.poke32 s a v
  · exact .refl s

theorem Stays.storeOrLose (s : State) (a : Addr) (v : Word) : Stays s (s.storeOrLose a v) :=
  (Stays.transact s).trans (.realWriteOrLose _ a v)

/-- No Execute is in progress any more. -/
theorem Stays.leaveDepth (s : State) : Stays s { s with execDepth := false } where
  toSound := ⟨rfl, id, id, .inl rfl, id, fun _ => rfl⟩
  mode := rfl
  abandoned := id

/-! ## The map walk -/

section
variable {R : State → State → Prop} (h : Reading R) {s : State}
include h

theorem Reading.loadPages : ∀ (n : Nat) (a : Addr) {m : MapLoad}, R s m.state → R s (loadPages n a m).state
  | 0, _, _, hm => hm
  | n + 1, a, m, hm => by
    have ht := h.trans hm (h.transact m.state)
    unfold Machine.loadPages
    split
    · split
      · exact ht
      · exact loadPages n (a + 2) ht
    · exact hm

theorem Reading.loadSegment (a : Addr) {m : MapLoad} (hm : R s m.state) : R s (loadSegment a m).state := by
  have ht := h.trans hm (h.transact m.state)
  unfold Machine.loadSegment
  split
  · exact ht
  · exact h.loadPages _ _ ht

theorem Reading.loadSegments : ∀ (n : Nat) (a : Addr) {m : MapLoad}, R s m.state → R s (loadSegments n a m).state
  | 0, _, _, hm => hm
  | n + 1, a, m, hm => by
    unfold Machine.loadSegments
    split
    · exact h.loadSegment a hm
    · exact loadSegments n (a + 4) (h.loadSegment a hm)

theorem Reading.loadBorrowed (x : BitVec 12) {m : MapLoad} (hm : R s m.state) : R s (loadBorrowed x m).state := by
  have ht := h.trans hm (h.transact m.state)
  unfold Machine.loadBorrowed
  simp only
  split
  · exact ht
  · exact h.loadSegment _ ht

theorem Reading.mapWalk (s : State) (n2 : Word) : R s (s.mapWalk n2).state := by
  have ht := h.transact s
  unfold State.mapWalk
  simp only
  split
  · exact ht
  · split
    · split
      · exact h.loadBorrowed _ ht
      · exact h.loadSegments _ _ (h.loadBorrowed _ ht)
    · exact h.loadSegments _ _ ht

end

/-! ## Context switches -/

/-- Every state in which a context switch ends has the relation to `s`. -/
inductive Switches (s : State) : Switch → Prop
  | done {t : State} (h : Stays s t) : Switches s (.done t)
  | memory (e : MemError) {t : State} (h : Stays s t) : Switches s (.memory e t)
  | overflow {t : State} (h : Stays s t) : Switches s (.overflow t)

/-- A PSD may be loaded: a CPU is in PSD mode (10_state.md R31, R43). -/
def State.TakesPsd (s : State) : Prop := s.cfg.role = .cpu → s.mode = .psd

theorem State.TakesPsd.of_stays {s t : State} (hp : s.TakesPsd) (h : Stays s t) : t.TakesPsd := by
  unfold State.TakesPsd; rw [h.cfg, h.mode]; exact hp

theorem Stays.setPsw (s : State) (n : Word) : Stays s (s.setPsw n) where
  toSound := ⟨rfl, id, id, .inl rfl, id, id⟩
  mode := rfl
  abandoned := id

/-- Bits 47 to 49 of PSD word 2 are stored as zero (10_state.md R32). -/
theorem psd2_masked (n2 : Word) : (n2 &&& 0xFFFE3FFF) &&& 0x0001C000 = 0 := by
  rw [BitVec.and_assoc]
  exact BitVec.and_zero

theorem Stays.setPsd {s : State} (hp : s.TakesPsd) (n1 n2 : Word) (m : Vector Half 32) :
    Stays s { s.setPsd n1 n2 with map := m } where
  cfg := rfl
  memory := id
  modes hs := by
    refine ⟨hs.1, fun e => ?_⟩
    have hm : s.mode = .psw := e
    cases r : s.cfg.role with
    | cpu => rw [hp r] at hm; cases hm
    | ipu => rw [hs.1 r] at hm; cases hm
  lock := .inl rfl
  word2 _ := psd2_masked n2
  depth := id
  mode := rfl
  abandoned := id

theorem Stays.wake (s : State) : Stays s s.wake := .of_core {}
theorem Stays.clearStatus (s : State) : Stays s s.clearStatus := .of_core {}
theorem Stays.orStatus (s : State) (b : Word) : Stays s (s.orStatus b) := .of_core {}
theorem Stays.noteMemError (s : State) (e : MemError) : Stays s (s.noteMemError e) := .of_core {}

/-- What a level's entry leaves after its context switch. -/
theorem Switches.mark {s : State} {w : Switch} (h : Switches s w) (l : Level) (n2 : Word) : Switches s (w.mark l n2) := by
  have marked (u : State) : Stays u (u.markEntered l n2) := by
    unfold State.markEntered
    split
    · exact .refl u
    · exact .of_core {}
  cases h with
  | done h => exact .done (h.trans (marked _))
  | memory e h => exact .memory e h
  | overflow h => exact .overflow (h.trans (marked _))

section
variable {s s0 : State} (h : Stays s0 s)
include h

theorem switches_read {a : Addr} {k : State → Word → Switch} (hk : ∀ t w, Stays s0 t → Switches s0 (k t w)) :
    Switches s0 (s.switchRead a k) := by
  have ht := h.trans (Stays.transact s)
  cases e : s.transact.realRead a with
  | ok w => rw [State.switchRead_ok e]; exact hk _ w ht
  | error x => rw [State.switchRead_error e]; exact .memory x ht

theorem switches_write {a : Addr} {v : Word} {k : State → Switch} (hk : ∀ t, Stays s0 t → Switches s0 (k t)) :
    Switches s0 (s.switchWrite a v k) := by
  have ht := h.trans (Stays.transact s)
  cases e : s.transact.present a 4 with
  | true => rw [State.switchWrite_ok e]; exact hk _ (ht.trans (stays_storing.poke32 _ _ _))
  | false => rw [State.switchWrite_error e]; exact .memory _ ht

theorem switches_storeOldPsd {icb : Addr} {k : State → Switch} (hk : ∀ t, Stays s0 t → Switches s0 (k t)) :
    Switches s0 (s.storeOldPsd icb k) :=
  switches_write h fun _ h1 => switches_write h1 hk

theorem switches_storeStatus {icb : Addr} {k : State → Switch} (hk : ∀ t, Stays s0 t → Switches s0 (k t)) :
    Switches s0 (s.storeStatus icb k) :=
  switches_write h fun t h1 => hk _ (h1.trans (.clearStatus t))

theorem switches_loadPsd (hp : s0.TakesPsd) (full : Bool) (n1 n2 : Word) : Switches s0 (s.loadPsd full n1 n2) := by
  have hw := h.trans (stays_storing.toReading.mapWalk s n2)
  have hs (t : State) (ht : Stays s0 t) (m : Vector Half 32) : Stays s0 { t.setPsd n1 n2 with map := m } :=
    ht.trans (.setPsd (hp.of_stays ht) n1 n2 m)
  unfold State.loadPsd
  split
  · simp only
    split
    · exact .done (hs _ hw _)
    · exact .overflow (hs _ hw _)
    · exact .memory _ (hw.trans (.of_core {}))
  · exact .done (hs s h s.map)

theorem switches_enterNewPsd (hp : s0.TakesPsd) (icb : Addr) : Switches s0 (s.enterNewPsd icb) :=
  switches_read h fun _ _ h1 => switches_read h1 fun _ _ h2 => switches_loadPsd h2 hp true _ _

theorem switches_trapSwitch (hp : s0.TakesPsd) (v : Addr) : Switches s0 (s.trapSwitch v) :=
  switches_read h fun _ _ h1 => switches_storeOldPsd h1 fun _ h2 => switches_storeStatus h2 fun _ h3 =>
    switches_enterNewPsd h3 hp _

theorem switches_ipuSwitch (hp : s0.TakesPsd) (v tcb : Addr) : Switches s0 (s.ipuSwitch v tcb) :=
  switches_storeOldPsd h fun _ h1 => switches_storeStatus h1 fun t h2 =>
    switches_enterNewPsd (h2.trans (Stays.of_core (s := t) {})) hp _

theorem switches_channelStatus {l : Level} {icb : Addr} {k : State → Switch} (hk : ∀ t, Stays s0 t → Switches s0 (k t)) :
    Switches s0 (s.storeChannelStatus l icb k) := by
  unfold State.storeChannelStatus
  split
  · exact hk s h
  · exact switches_write ((h.trans (Stays.of_core {})).trans ((Stays.realWriteOrLose _ _ _).trans (.realWriteOrLose _ _ _))) hk

theorem switches_interruptSwitch (hp : s0.TakesPsd) (l : Level) : Switches s0 (s.interruptSwitch l) :=
  switches_read h fun _ _ h1 => switches_storeOldPsd h1 fun _ h2 => switches_channelStatus h2 fun _ h3 =>
    switches_read h3 fun _ _ h4 => switches_read h4 fun _ n2 h5 => (switches_loadPsd h5 hp true _ n2).mark l n2

theorem switches_pswSwitch (l : Level) : Switches s0 (s.pswSwitch l) :=
  switches_read h fun _ _ h1 => switches_write h1 fun _ h2 => switches_read h2 fun t n h3 =>
    .done ((h3.trans (.setPsw t n)).trans (.of_core {}))

end

/-! ## Traps and interrupts -/

theorem Stays.trapHalt (s : State) (v : Addr) : Stays s (s.trapHalt v) := by
  have h1 := Stays.storeOrLose s 0x530 s.psd1Image
  have h2 : Stays s (if s.mode = .psd then (s.storeOrLose 0x530 s.psd1Image).storeOrLose 0x534 s.psd2Image
      else s.storeOrLose 0x530 s.psd1Image) := by
    split
    · exact h1.trans (.storeOrLose _ _ _)
    · exact h1
  have h3 := ((h2.trans (.storeOrLose _ 0x538 s.statusWord)).trans (.clearStatus _)).trans (.storeOrLose _ 0x53C 0)
  have h4 := (h3.trans (.storeOrLose _ 0x540 0)).trans (.leaveDepth _)
  exact h4.trans (.of_core {})

/-- The PSD put back is that of a state with the same mode. -/
theorem Stays.restorePsd {s old t : State} (h1 : Stays s old) (h2 : Stays s t) : Stays s (t.restorePsd old) where
  cfg := h2.cfg
  memory := h2.memory
  modes hs := by
    have ho := h1.modes hs
    unfold State.ModeInv at ho ⊢
    rw [h1.cfg, h1.mode] at ho
    show (t.cfg.role = .ipu → t.mode = .psd) ∧ (t.mode = .psw → old.mapped = false)
    rw [h2.cfg, h2.mode]
    exact ho
  lock := h2.lock
  word2 := h1.word2
  depth := h2.depth
  mode := h2.mode
  abandoned := h2.abandoned

theorem Stays.trapEntry : ∀ (n : Nat) (t : Trap) (s : State), s.TakesPsd → Stays s (trapEntry n t s)
  | 0, t, s, _ => .trapHalt s _
  | n + 1, t, s, hp => by
    have h1 : Stays s { s.orStatus (t.statusBits .psd) with blockCount := if t = Trap.blockTimeout then 0 else s.blockCount } :=
      .of_core {}
    unfold Machine.trapEntry
    simp only
    split
    · exact h1.trans (.trapHalt _ _)
    · have hsw := switches_trapSwitch (h1.trans (.wake _)) hp t.vector
      split
      · rename_i s2 e
        rw [e] at hsw
        cases hsw with | done h2 => exact h2.trans (.leaveDepth _)
      · rename_i x s2 e
        rw [e] at hsw
        cases hsw with | memory _ h2 => ?_
        have h3 := h2.trans (.noteMemError _ x)
        split
        · exact (h3.trans (.orStatus _ _)).trans (.trapHalt _ _)
        · exact h3.trans (trapEntry n _ _ (hp.of_stays h3))
      · rename_i s2 e
        rw [e] at hsw
        cases hsw with | overflow h2 => ?_
        split
        · have h3 := h1.restorePsd h2
          exact h3.trans (trapEntry n _ _ (hp.of_stays h3))
        · exact h2.trans (trapEntry n _ _ (hp.of_stays h2))

theorem Stays.afterSwitch {s : State} {w : Switch} (hp : s.TakesPsd) (h : Switches s w) : Stays s (State.afterSwitch w) := by
  cases h with
  | done h => exact h.trans (.leaveDepth _)
  | memory e h =>
    have h1 := h.trans (.noteMemError _ e)
    exact h1.trans (.trapEntry _ _ _ (hp.of_stays h1))
  | overflow h => exact h.trans (.trapEntry _ _ _ (hp.of_stays h))

theorem Stays.interruptEntry (l : Level) (s : State) : Stays s (interruptEntry l s) := by
  have h0 : Stays s (s.setRequesting l false).wake := .of_core {}
  cases e : s.mode with
  | psd =>
    have hp : s.TakesPsd := fun _ => e
    unfold Machine.interruptEntry
    rw [e]
    exact .afterSwitch hp (switches_interruptSwitch h0 hp l)
  | psw =>
    have hsw := switches_pswSwitch h0 l
    unfold Machine.interruptEntry
    rw [e]
    simp only
    split
    · rename_i t e1
      rw [e1] at hsw
      cases hsw with | done h => exact h
    · rename_i x t e1
      rw [e1] at hsw
      cases hsw with | memory _ h => exact (h.trans (.noteMemError _ x)).trans ((Stays.orStatus _ _).trans (.trapHalt _ _))
    · rename_i t e1
      rw [e1] at hsw
      cases hsw with | overflow h => exact h

theorem Stays.pswTrap (x : Trap) (s : State) : Stays s (pswTrap x s) := by
  unfold Machine.pswTrap
  split
  · exact .orStatus s _
  · exact (Stays.orStatus s _).trans (.interruptEntry _ _)

/-- Whatever an outcome leads to, the control mode and the configuration are as before and the invariants hold. -/
def Outcome.Stays (s : State) (o : Outcome) : Prop := ∀ t, o = .next t → Machine.Stays s t

theorem Outcome.Stays.next {s t : State} (h : Machine.Stays s t) : Outcome.Stays s (.next t) := by
  rintro _ ⟨⟩
  exact h

theorem Outcome.Stays.of_stays {s t : State} {o : Outcome} (h : Machine.Stays s t) (k : Outcome.Stays t o) : Outcome.Stays s o :=
  fun u e => h.trans (k u e)

theorem State.TakesPsd.of_ipu {s : State} (h : s.cfg.role = .ipu) : s.TakesPsd := fun e => by rw [h] at e; cases e

theorem Stays.ipuRunning (s : State) : Stays s s.ipuRunning := (Stays.leaveDepth s).trans (.of_core {})

theorem stays_ipuError {s : State} (hr : s.cfg.role = .ipu) (bits : Word) : Outcome.Stays s (ipuError bits s) := by
  have hsw : Switches s ((s.orStatus bits).switchRead 0x2EC fun s1 v => s1.ipuSwitch 0x2EC (vectorAddr v)) :=
    switches_read (.orStatus s bits) fun _ _ h => switches_ipuSwitch h (.of_ipu hr) _ _
  unfold ipuError
  split
  · rename_i t e
    rw [e] at hsw
    cases hsw with | done h => exact .next (h.trans (.ipuRunning _))
  all_goals rintro _ ⟨⟩

theorem stays_afterIpuSwitch {s : State} (hr : s.cfg.role = .ipu) {w : Switch} (h : Switches s w) :
    Outcome.Stays s (afterIpuSwitch w) := by
  cases h with
  | done h => exact .next (h.trans (.ipuRunning _))
  | memory e h =>
    have h1 := h.trans (.noteMemError _ e)
    exact .of_stays h1 (stays_ipuError (by rw [h1.cfg, hr]) _)
  | overflow h => exact .of_stays h (stays_ipuError (by rw [h.cfg, hr]) _)

theorem stays_ipuTrap {s : State} (hr : s.cfg.role = .ipu) (v : Addr) : Outcome.Stays s (ipuTrap v s) :=
  stays_afterIpuSwitch hr (switches_read (.refl s) fun _ _ h => switches_ipuSwitch h (.of_ipu hr) _ _)

theorem Stays.abandon (s : State) (x : Trap) : Stays s (s.abandon x) where
  toSound := ⟨rfl, id, id, .inl rfl, id, fun _ => rfl⟩
  mode := rfl
  abandoned _ := rfl

/-- What raising a trap leads to, from the abandoned instruction on. -/
theorem stays_raise_abandoned (x : Trap) (s : State) : Outcome.Stays (s.abandon x) (raise x s) := by
  unfold raise
  split
  · rename_i hr
    exact stays_ipuError (s := s.abandon x) hr _
  · split
    · rename_i hm
      exact .next (.trapEntry _ _ _ fun _ => hm)
    · exact .next (.pswTrap _ _)

theorem stays_raise (x : Trap) (s : State) : Outcome.Stays s (raise x s) :=
  .of_stays (.abandon s x) (stays_raise_abandoned x s)

theorem abandoned_raise {x : Trap} {s t : State} (h : raise x s = .next t) : t.abandoned = true :=
  (stays_raise_abandoned x s t h).abandoned rfl

theorem abandoned_halt (x : Trap) (b : Word) (v : Addr) (s : State) :
    (((s.abandon x).orStatus b).trapHalt v).abandoned = true :=
  ((Stays.orStatus (s.abandon x) b).trans (.trapHalt _ v)).abandoned rfl

theorem stays_svcTrap {s : State} (hm : s.mode = .psd) (ix : BitVec 4) (call : BitVec 12) :
    Outcome.Stays s (svcTrap ix call s) := by
  have hp : s.TakesPsd := fun _ => hm
  unfold svcTrap
  split
  · exact .next (.afterSwitch hp (switches_read (.refl s) fun _ _ h1 => switches_read h1 fun _ _ h2 =>
      switches_storeOldPsd h2 fun _ h3 => switches_write h3 fun _ h4 => switches_enterNewPsd h4 hp _))
  · rename_i hr
    exact stays_afterIpuSwitch hr (switches_read (.refl s) fun _ _ h1 => switches_read h1 fun _ _ h2 =>
      switches_ipuSwitch h2 hp _ _)

/-! ## From the relation of an outcome to its next state -/

/-- An outcome up to a relation that the traps keep is so whatever trap is raised. -/
theorem Ends.stays {s : State} {o : Outcome} (h : Ends Stays s o) : Outcome.Stays s o := by
  cases h with
  | next h => exact .next h
  | raised x h => exact .of_stays h (stays_raise x _)
  | halted x b v h => exact .next (h.trans ((Stays.abandon _ x).trans ((Stays.orStatus _ b).trans (.trapHalt _ v))))
  | fault f => rintro _ ⟨⟩

/-- An instruction that did not trap answered its next state. -/
theorem Ends.rel {R : State → State → Prop} {s t : State} {o : Outcome} (h : Ends R s o) (e : o = .next t)
    (hc : t.abandoned = false) : R s t := by
  cases h with
  | next h => cases e; exact h
  | raised x h => rw [abandoned_raise e] at hc; cases hc
  | halted x b v h =>
    cases e
    rw [abandoned_halt] at hc
    cases hc
  | fault f => cases e

end Sys2Proof.Machine
end

section
/-! PROOFS. The other instructions up to a relation: those that act on the processor's own latches, registers and WCS, the
channel instructions, and the PSD loads. -/

namespace Sys2Proof.Machine

/-- A relation that the fields outside `SameCore`, and a WCS word written, respect as well. -/
structure System (R : State → State → Prop) : Prop extends Reading R where
  own : ∀ {s t : State}, SameCore s t → R s t
  wcs : ∀ (s : State) (a : Nat) (v : Double) (cc : BitVec 4), R s { s with wcs := Wcs.write s.wcs a v, cc := cc }

/-- A relation that a PSW or PSD loaded respects, the PSD in PSD mode alone. -/
structure Loading (R : State → State → Prop) : Prop extends System R where
  psw : ∀ (s : State) (n : Word), R s (s.setPsw n)
  psd : ∀ {s t : State}, s.mode = .psd → R s t → ∀ (n1 n2 : Word) (m : Vector Half 32), R s { t.setPsd n1 n2 with map := m }

/-- The rest of an instruction after an operation, given how far it is. -/
theorem Yields.finish_rel {α : Type} {R : State → State → Prop} {s : State} {x : Res α} {k : α → State → Outcome}
    (hx : Yields R s x) (hk : ∀ a t, R s t → Ends R s (k a t)) : Ends R s (x.finish k) := by
  cases hx with
  | ok a st => exact hk a _ st
  | trap x st => exact .raised x st
  | stuck f => exact .fault f

namespace System
variable {R : State → State → Prop} (h : System R)
include h

theorem orStatus (s : State) (b : Word) : R s (s.orStatus b) := h.own {}
theorem clearStatus (s : State) : R s s.clearStatus := h.own {}

theorem unmappedOnly {s : State} {k : Outcome} (hk : Ends R s k) : Ends R s (unmappedOnly s k) := by
  unfold Machine.unmappedOnly
  split
  · exact .raised _ (h.refl s)
  · exact hk

/-- A privileged operation that ends at once. -/
theorem privileged_next {s t : State} (hc : R s t) : Ends R s (privileged s (.next t)) :=
  Ends.privileged h.toReading (.next hc)

/-! ## Memory management and WCS -/

theorem loadMap (p2 : Word) (s : State) : Ends R s (loadMap p2 s) := by
  have hw := h.toReading.mapWalk s p2
  have hm : R s { (s.mapWalk p2).state with map := (s.mapWalk p2).map, stopHit := s.stopHit || (s.mapWalk p2).hit } :=
    h.trans hw (h.own {})
  unfold Machine.loadMap
  simp only
  split
  · exact .next hm
  · exact .raised _ hm
  · exact .raised _ hm

theorem execLmap (d : Reg) (s : State) : Ends R s (execLmap d s) :=
  Ends.psdOnly h.toReading fun _ => Ends.privileged h.toReading (h.unmappedOnly (by
    have ht := h.transact s
    split
    · exact .raised _ ht
    · exact Ends.of_rel h.toReading (h.trans ht (h.toReading.noteRead _ _)) (h.loadMap _ _)))

theorem wcsError (s : State) : R s s.wcsError := by
  unfold State.wcsError
  split
  · exact h.orStatus s _
  · exact h.refl s

theorem wcsAbsent (s : State) : Ends R s (wcsAbsent s) :=
  .raised _ (h.trans (h.toReading.setCc s _) (h.wcsError _))

theorem execWwcs (sr d : Reg) (s : State) : Ends R s (execWwcs sr d s) := by
  refine Ends.privileged h.toReading ?_
  split
  · exact (h.toReading.load32 s _).finish h.toReading fun _ t =>
      (h.toReading.load32 t _).finish h.toReading fun _ u => .next (h.wcs u _ _ 0)
  · exact h.wcsAbsent s

theorem execLear (r : Reg) (m : MemRef 20) (s : State) : Ends R s (execLear r m s) :=
  Ends.psdOnly h.toReading fun _ => Ends.privileged h.toReading ((h.toReading.effective s _).finish h.toReading fun e t => by
    show Ends R t (match t.translate e.ea with
      | none => raise (.mapFault false) t
      | some pa => .next (t.setReg r (0#7 ++ BitVec.ofBool e.ef ++ pa)))
    split
    · exact .raised _ (h.refl t)
    · exact .next (h.toReading.setReg t _ _))

/-! ## Control and interrupt -/

theorem execWait (s : State) : Ends R s (execWait s) := by
  have he : R s (enterWait s) := h.own {}
  unfold Machine.execWait
  split
  · exact h.privileged_next he
  · split
    · exact .next (h.own {})
    · exact .next he

theorem execRdsts (d : Reg) (s : State) : Ends R s (execRdsts d s) := by
  unfold Machine.execRdsts
  split
  · exact h.privileged_next (h.trans (h.trans (h.toReading.setReg s _ _) (h.toReading.setCc _ _)) (h.clearStatus _))
  · exact .raised _ (h.refl s)

theorem interruptControl {l : Level} {action after : State → State} (ha : ∀ s, SameCore s (action s))
    (hf : ∀ s, SameCore s (after s)) (s : State) : Ends R s (interruptControl l action after s) := by
  refine Ends.cpuOnly h.toReading (h.privileged_next (h.trans ?_ (h.own (hf _))))
  split
  · exact h.own (ha s)
  · exact h.refl s

theorem execEi (l : Level) (s : State) : Ends R s (execEi l s) := by
  refine h.interruptControl (fun t => ?_) (fun _ => {}) s
  split <;> exact {}

theorem execDi (l : Level) (s : State) : Ends R s (execDi l s) := by
  refine h.interruptControl (fun t => ?_) (fun _ => {}) s
  split <;> exact {}

/-! ## Channels -/

theorem setRequesting (s : State) (l : Level) (b : Bool) : R s (s.setRequesting l b) := h.own {}

theorem iocla (ch : Channel) (s : State) : Yields R s (s.iocla ch) := by
  have h1 := h.transact s
  unfold State.iocla
  simp only
  split
  · exact .trap _ h1
  · have h2 := h.trans h1 (h.trans (h.toReading.noteRead _ (levelVector ch.level)) (h.transact _))
    split
    · exact .trap _ h2
    · exact .ok _ (h.trans h2 (h.toReading.noteRead _ _))

theorem emit (s : State) (c : ChannelCommand) : R s (s.emit c) := h.own {}

theorem classFAccepted {op : ClassFOp} {ch : Channel} {sub : BitVec 7} {list : Bool} {a : ClassFAnswer}
    {effect : State → State} (he : ∀ t, SameCore t (effect t)) (s : State) :
    Ends R s (classFAccepted op ch sub list a effect s) := by
  have tail (t : State) (c : ChannelCommand) : R t ((effect (t.emit c)).setCc (answerCc a)) :=
    h.trans (h.trans (h.emit t c) (h.own (he _))) (h.toReading.setCc _ _)
  unfold Machine.classFAccepted
  split
  · exact (h.iocla ch s).finish h.toReading fun _ t => .next (tail t _)
  · exact .next (tail s _)

/-- An operation to which Status Stored is no answer, or which stores a status within the relation. -/
theorem classFAddressed {op : ClassFOp} {ch : Channel} {sub : BitVec 7} {list : Bool} {effect : State → State}
    (hst : reportsStatus op = true → ∀ t, Ends R t (statusStored ch t)) (he : ∀ t, SameCore t (effect t)) (s : State) :
    Ends R s (classFAddressed op ch sub list effect s) := by
  have h1 : R s { s.releaseInterlock ch.device with freeIx := s.freeIx + 1 } := h.own {}
  refine Ends.of_rel h.toReading h1 ?_
  unfold Machine.classFAddressed
  simp only
  split
  · exact h.classFAccepted he _
  · split
    · rename_i hs
      refine Ends.of_rel h.toReading (h.emit _ _) (hst ?_ _)
      unfold State.answer at hs
      cases hr : reportsStatus op with
      | true => rfl
      | false =>
        simp only [hr, Bool.not_false, Bool.and_true, decide_eq_true_eq] at hs
        split at hs
        · cases hs
        · contradiction
    · exact .next (h.trans (h.emit _ _) (h.toReading.setCc _ _))

theorem classF {r : Reg} {k : Half} {s : State} {known : Channel → BitVec 7 → Outcome} {absent : State → State}
    (hk : ∀ ch sub, Ends R s (known ch sub)) (ha : ∀ t, SameCore t (absent t)) : Ends R s (classF r k s known absent) := by
  refine Ends.psdOnly h.toReading fun _ => Ends.cpuOnly h.toReading (Ends.privileged h.toReading ?_)
  split
  · exact .next (h.trans (h.toReading.setCc s _) (h.own (ha _)))
  · split
    · exact hk _ _
    · exact .raised _ (h.refl s)

theorem channelOp {op : ClassFOp} {list : Bool} {effect : Channel → State → State}
    (hst : reportsStatus op = true → ∀ ch t, Ends R t (statusStored ch t)) (he : ∀ ch t, SameCore t (effect ch t))
    (r : Reg) (k : Half) (s : State) : Ends R s (channelOp op list effect r k s) :=
  h.classF (fun ch _ => h.classFAddressed (fun hr => hst hr ch) (he ch) s) fun _ => {}

theorem execWcwcs (r : Reg) (k : Half) (s : State) : Ends R s (execWcwcs r k s) := by
  refine h.classF (fun ch sub => ?_) fun _ => {}
  split
  · have h1 : R s { s with wcsInterlock := none } := h.own {}
    exact Ends.of_rel h.toReading h1 (h.classFAddressed (fun hr => by cases hr) (fun _ => {}) _)
  · exact .raised _ (h.refl s)

theorem execDaci (r : Reg) (k : Half) (s : State) : Ends R s (execDaci r k s) := by
  refine h.classF (fun ch sub => ?_) fun _ => {}
  have h1 : R s { s with nonint := true } := h.own {}
  exact Ends.of_rel h.toReading h1 (h.classFAddressed (fun hr => by cases hr) (fun _ => {}) _)

theorem classFMisuse {s : State} {k : Outcome} (hk : Ends R s k) : Ends R s (classFMisuse s k) := by
  unfold Machine.classFMisuse
  split
  · exact .raised _ (h.refl s)
  · exact hk

theorem execCd (n : BitVec 7) (f : Half) (s : State) : Ends R s (execCd n f s) := by
  refine Ends.cpuOnly h.toReading (Ends.privileged h.toReading ?_)
  unfold commandTo
  split
  · exact .next (h.refl s)
  · split
    · exact h.classFMisuse (.next (h.refl s))
    · exact .next (h.emit s _)

theorem execTd (n : BitVec 7) (f : Half) (s : State) : Ends R s (execTd n f s) := by
  refine Ends.cpuOnly h.toReading (Ends.privileged h.toReading ?_)
  unfold testOf
  split
  · exact .next (h.toReading.setCc s _)
  · split
    · exact h.classFMisuse (.next (h.toReading.setCc s _))
    · have h1 : R s { s with freeIx := s.freeIx + 1 } := h.own {}
      exact .next (h.trans (h.trans h1 (h.emit _ _)) (h.toReading.setCc _ _))

/-- Every instruction that is not ordinary, stores nothing, loads no PSD and is not SETCPU. -/
theorem exec {i : Instr} (hi : isOrdinary i = false) (hs : mayStore i = false) (hl : mayLoadPsd i = false)
    (hc : ∀ r, i ≠ .setcpu r) (s : State) : Ends R s (exec i s) := by
  have quiet {op : ClassFOp} (hr : reportsStatus op = false) :
      reportsStatus op = true → ∀ ch t, Ends R t (statusStored ch t) := fun e => by rw [hr] at e; cases e
  cases i
  case lear r m => exact h.execLear r m s
  case tscr => exact h.privileged_next (h.toReading.setReg s _ _)
  case trsc | trp | halt => exact h.privileged_next (h.own {})
  case sea | cea => exact .next (h.own {})
  case lmap => exact h.execLmap _ s
  case tmapr =>
    exact Ends.psdOnly h.toReading fun _ => Ends.privileged h.toReading (h.unmappedOnly (.next (h.toReading.setReg s _ _)))
  case wwcs => exact h.execWwcs _ _ s
  case wait => exact h.execWait s
  case rdsts => exact h.execRdsts _ s
  case eae | dae => exact Ends.psdOnly h.toReading fun _ => h.privileged_next (h.own {})
  case ei l => exact h.execEi l s
  case di l => exact h.execDi l s
  case ri l => exact h.interruptControl (action := fun t => t.setRequesting l true) (after := id) (fun _ => {}) (fun _ => {}) s
  case ai l => exact h.interruptControl (action := fun t => t.setActive l true) (after := id) (fun _ => {}) (fun _ => {}) s
  case dai l =>
    exact h.interruptControl (action := fun t => t.setActive l false) (after := State.protectNext) (fun _ => {}) (fun _ => {}) s
  case eci | dci | aci | stpio | rschnl | grio | rsctl | ecwcs => exact h.channelOp (quiet rfl) (fun _ _ => {}) _ _ s
  case daci => exact h.execDaci _ _ s
  case bei => exact Ends.psdOnly h.toReading fun _ => Ends.cpuOnly h.toReading (h.privileged_next (h.own {}))
  case uei => exact Ends.psdOnly h.toReading fun _ => h.privileged_next (h.own {})
  case cd => exact h.execCd _ _ s
  case td => exact h.execTd _ _ s
  case wcwcs => exact h.execWcwcs _ _ s
  case setcpu r => exact absurd rfl (hc r)
  all_goals first | exact Bool.noConfusion hi | exact Bool.noConfusion hs | exact Bool.noConfusion hl

end System

/-! ## System instructions that store -/

section
variable {R : State → State → Prop} (h : System R) (hst : Storing R)
include h hst

theorem Storing.realWriteOrLose (s : State) (a : Addr) (v : Word) : R s (s.realWriteOrLose a v) := by
  unfold State.realWriteOrLose
  split
  · exact hst.poke32 s a v
  · exact h.refl s

theorem Storing.pokeAll : ∀ (l : List (Addr × Byte)) (s : State), R s (State.pokeAll l s)
  | [], s => h.refl s
  | (a, b) :: l, s => h.trans (h.trans (hst.poke8 s a b) (h.toReading.noteWrite _ a)) (pokeAll l _)

theorem Storing.statusStored (ch : Channel) (s : State) : Ends R s (statusStored ch s) := by
  have h1 := h.transact s
  unfold Machine.statusStored
  simp only
  split
  · exact .raised _ h1
  · have taken (t : State) : R t (t.takeChannelStatus ch.device).1 := by
      have h0 : R t { t with freeIx := t.freeIx + 1 } := h.own {}
      exact h.trans h0 (h.trans (hst.realWriteOrLose h _ _ _) (hst.realWriteOrLose h _ _ _))
    have h2 := h.trans (h.trans h1 (h.toReading.noteRead _ (levelVector ch.level))) (h.trans (taken _) (h.transact _))
    unfold State.realWrite
    split
    · exact .raised _ h2
    · rename_i e
      split at e
      · cases e
        exact .next (h.trans (h.trans h2 (hst.poke32 _ _ _))
          (h.trans (h.toReading.noteWrite _ _) (h.trans (h.setRequesting _ _ _) (h.toReading.setCc _ _))))
      · cases e

theorem Storing.execRwcs (sr d : Reg) (s : State) : Ends R s (execRwcs sr d s) := by
  refine Ends.privileged h.toReading ?_
  split
  · exact (hst.store32 s _ _).finish h.toReading fun _ t =>
      (hst.store32 t _ _).finish h.toReading fun _ u => .next (h.toReading.setCc u _)
  · exact h.wcsAbsent s

theorem Storing.execJwcs (m : MemRef 20) (s : State) : Ends R s (execJwcs m s) := by
  unfold Machine.execJwcs
  split
  · exact .raised _ (h.wcsError s)
  · exact (h.toReading.effective s _).finish h.toReading fun _ t =>
      .next (h.trans (h.toReading.marks t _ _ t.pc t.noHalt t.stopHit t.freeIx) (hst.pokeAll h _ _))

/-- Every such instruction that loads no PSD. -/
theorem Storing.system {i : Instr} (hi : isOrdinary i = false) (hs : mayStore i = true) (hl : mayLoadPsd i = false)
    (s : State) : Ends R s (Machine.exec i s) := by
  cases i
  case rwcs => exact hst.execRwcs h _ _ s
  case jwcs => exact hst.execJwcs h _ s
  case sio | tio | hio => exact h.channelOp (fun _ => hst.statusStored h) (fun _ _ => {}) _ _ s
  all_goals first | exact Bool.noConfusion hi | exact Bool.noConfusion hs | exact Bool.noConfusion hl

end

/-! ## PSD loads -/

namespace Loading
variable {R : State → State → Prop} (h : Loading R) {s : State}
include h

theorem resetHighest (s : State) : R s s.resetHighest := by
  unfold State.resetHighest
  split
  · exact h.own {}
  · exact h.refl s

theorem finishSwitch (hm : s.mode = .psd) {k : State → State} (hk : ∀ t, R t (k t)) {t : State} (ht : R s t)
    (full : Bool) (n1 n2 : Word) : Ends R s (finishSwitch k (t.loadPsd full n1 n2)) := by
  have hw := h.trans ht (h.toReading.mapWalk t n2)
  unfold State.loadPsd
  split
  · simp only
    split
    · exact .next (h.trans (h.psd hm hw n1 n2 _) (hk _))
    · exact .raised _ (h.psd hm hw n1 n2 _)
    · exact .raised _ (h.trans hw (h.own {}))
  · exact .next (h.trans (h.psd hm ht n1 n2 t.map) (hk _))

theorem loadPsdAt (hm : s.mode = .psd) {k : State → State} (hk : ∀ t, R t (k t)) {t : State} (ht : R s t)
    (full : Bool) (a : Addr) : Ends R s (loadPsdAt full a k t) :=
  Yields.finish_rel ((h.toReading.load32 t a).of_rel h.toReading ht) fun _ u hu =>
    Yields.finish_rel ((h.toReading.load32 u _).of_rel h.toReading hu) fun n2 v hv =>
      h.finishSwitch hm hk (h.trans hv (h.own (s := v) {})) full _ n2

omit h in
theorem briPswError (x : Trap) {t : State} (ht : R s t) : Ends R s (briPswError x t) := by
  unfold Machine.briPswError
  split
  · exact .halted x _ _ ht
  · exact .raised x ht

theorem briPsw (a : Addr) (s : State) : Ends R s (briPsw a s) := by
  have hy := h.toReading.load32 s a
  unfold Machine.briPsw
  split
  · rename_i w t e
    rw [e] at hy
    cases hy with | ok _ ht => exact .next (h.trans (h.trans ht (h.psw t w)) (h.resetHighest _))
  · rename_i x t e
    rw [e] at hy
    cases hy with | trap _ ht => exact briPswError x ht
  · exact .fault _

/-- LPSD, LPSDCM and BRI. -/
theorem exec {i : Instr} (hl : mayLoadPsd i = true) (hs : mayStore i = false) (s : State) : Ends R s (exec i s) := by
  have r := h.toReading
  cases i
  case lpsd | lpsdcm =>
    exact Ends.psdOnly r fun hm => Ends.privileged r (Yields.finish_rel (r.effective s _) fun _ _ ht =>
      h.loadPsdAt hm h.refl ht _ _)
  case bri m =>
    show Ends R s (execBri m s)
    refine Ends.cpuOnly r (Ends.privileged r ?_)
    split
    · unfold briIndirect
      split
      · exact h.briPsw _ s
      · rename_i hm
        exact h.loadPsdAt hm h.resetHighest (h.refl s) true _
    · exact .next (h.trans (r.marks s s.regs s.cc _ s.noHalt s.stopHit s.freeIx) (h.resetHighest _))
  all_goals first | exact Bool.noConfusion hl | exact Bool.noConfusion hs

end Loading

end Sys2Proof.Machine
end

section
/-! PROOFS. The instructions as a whole: what each keeps of the machine's invariant, of the privileged state, of memory, and
of everything but registers, flags and memory. -/

namespace Sys2Proof.Machine

/-! ## WCS as data -/

theorem Wcs.wfFrom_cons {lo k : Nat} {v : Double} {t : List (Nat × Double)} :
    Wcs.wfFrom lo ((k, v) :: t) = true ↔ lo ≤ k ∧ v ≠ 0 ∧ Wcs.wfFrom (k + 1) t = true := by
  simp only [Wcs.wfFrom, Bool.and_eq_true, decide_eq_true_eq, and_assoc]

theorem Wcs.wfFrom_mono {lo lo' : Nat} (h : lo' ≤ lo) : ∀ {m : List (Nat × Double)}, Wcs.wfFrom lo m = true →
    Wcs.wfFrom lo' m = true
  | [], _ => rfl
  | (k, v) :: t, hm => by
    rw [Wcs.wfFrom_cons] at hm ⊢
    exact ⟨h.trans hm.1, hm.2⟩

theorem Wcs.write_wfFrom {lo a : Nat} {b : Double} (hlo : lo ≤ a) :
    ∀ {m : List (Nat × Double)}, Wcs.wfFrom lo m = true → Wcs.wfFrom lo (Wcs.write m a b) = true
  | [], _ => by
    unfold Wcs.write
    split
    · rfl
    · exact Wcs.wfFrom_cons.2 ⟨hlo, ‹_›, rfl⟩
  | (k, v) :: t, hm => by
    obtain ⟨hk, hv, ht⟩ := Wcs.wfFrom_cons.1 hm
    unfold Wcs.write
    split
    · subst k
      split
      · exact Wcs.wfFrom_mono (Nat.le_succ_of_le hk) ht
      · exact Wcs.wfFrom_cons.2 ⟨hk, ‹_›, ht⟩
    · split
      · rename_i hlt
        split
        · exact hm
        · exact Wcs.wfFrom_cons.2 ⟨hlo, ‹_›, Wcs.wfFrom_cons.2 ⟨hlt, hv, ht⟩⟩
      · exact Wcs.wfFrom_cons.2 ⟨hk, hv, write_wfFrom (by omega) ht⟩

theorem Wcs.write_wf {m : List (Nat × Double)} {a : Nat} {b : Double} (h : Wcs.wf m = true) :
    Wcs.wf (Wcs.write m a b) = true := write_wfFrom (Nat.zero_le a) h

/-! ## The invariants -/

theorem Stays.wcsWritten (s : State) (a : Nat) (v : Double) (cc : BitVec 4) :
    Stays s { s with wcs := Wcs.write s.wcs a v, cc := cc } where
  cfg := rfl
  memory hs := ⟨hs.1, Wcs.write_wf hs.2⟩
  modes := id
  lock := .inl rfl
  word2 := id
  depth := id
  mode := rfl
  abandoned := id

theorem stays_loading : Loading Stays where
  toReading := stays_storing.toReading
  own := Stays.of_core
  wcs := Stays.wcsWritten
  psw := Stays.setPsw
  psd hm h n1 n2 m := h.trans (Stays.setPsd (State.TakesPsd.of_stays (fun _ => hm) h) n1 n2 m)

/-- SIPU and CALM: a signal on a CPU, a trap on an IPU. -/
theorem stays_sipu (s : State) : Outcome.Stays s (execSipu s) := by
  unfold execSipu
  split
  · exact .next (.of_core {})
  · exact stays_ipuTrap ‹_› _

theorem stays_calm (f : BitVec 10) (s : State) : Outcome.Stays s (execCalm f s) := by
  unfold execCalm
  split
  · exact .next (.of_core {})
  · exact stays_ipuTrap ‹_› _

theorem stays_svc (ix : BitVec 4) (call : BitVec 12) (s : State) : Outcome.Stays s (execSvc ix call s) := by
  unfold execSvc
  cases e : s.mode with
  | psd =>
    rw [psdOnly_psd e]
    exact .of_stays (stays_storing.setCc s 0) (stays_svcTrap (s := s.setCc 0) e ix call)
  | psw =>
    rw [psdOnly_psw e]
    exact stays_raise _ s

/-- Every instruction but SETCPU and the three Execute instructions. -/
theorem stays_exec {i : Instr} (hc : ∀ r, i ≠ .setcpu r ∧ i ≠ .exr r ∧ i ≠ .exrr r) (hm : ∀ m, i ≠ .exm m) (s : State) :
    Outcome.Stays s (exec i s) := by
  have sys := stays_loading.toSystem
  cases hi : isOrdinary i with
  | true => exact (stays_storing.exec hi s).stays
  | false =>
    cases hl : mayLoadPsd i with
    | false =>
      cases hs : mayStore i with
      | false => exact (sys.exec hi hs hl (fun r => (hc r).1) s).stays
      | true => exact (stays_storing.system sys hi hs hl s).stays
    | true =>
      cases hs : mayStore i with
      | false => exact (stays_loading.exec hl hs s).stays
      | true =>
        cases i
        case exr r => exact absurd rfl (hc r).2.1
        case exrr r => exact absurd rfl (hc r).2.2
        case exm m => exact absurd rfl (hm m)
        case sipu => exact stays_sipu s
        case calm f => exact stays_calm f s
        case svc ix call => exact stays_svc ix call s
        all_goals first | exact Bool.noConfusion hl | exact Bool.noConfusion hs

/-! ## SETCPU and the Execute instructions -/

/-- Whatever an outcome leads to, the configuration is as before and the invariants hold. -/
def Outcome.Sound (s : State) (o : Outcome) : Prop := ∀ t, o = .next t → Machine.Sound s t

theorem Outcome.Sound.next {s t : State} (h : Machine.Sound s t) : Outcome.Sound s (.next t) := by
  rintro _ ⟨⟩
  exact h

theorem Outcome.Sound.of_sound {s t : State} {o : Outcome} (h : Machine.Sound s t) (k : Outcome.Sound t o) :
    Outcome.Sound s o := fun u e => h.trans (k u e)

theorem Outcome.Stays.sound {s : State} {o : Outcome} (h : Outcome.Stays s o) : Outcome.Sound s o := fun t e => (h t e).toSound

theorem Sound.setCpuMode (s : State) (v : Word) : Sound s (s.setCpuMode v) where
  cfg := rfl
  memory := id
  modes hs := by
    unfold State.ModeInv State.setCpuMode
    refine ⟨fun hr => ?_, fun hm => ?_⟩
    · unfold State.modeFor
      rw [show s.cfg.role = .ipu from hr]
    · have e : s.modeFor (v.getLsbD 12) = .psw := hm
      simp only [e, reduceCtorEq, decide_false, Bool.and_false]
  lock := .inl rfl
  word2 := id
  depth := id

theorem sound_setcpu (r : Reg) (s : State) : Outcome.Sound s (execSetcpu r s) := by
  unfold execSetcpu
  cases e : s.priv with
  | false =>
    rw [privileged_no e]
    exact (stays_raise _ s).sound
  | true =>
    rw [privileged_yes e]
    split
    · exact (stays_raise _ s).sound
    · exact .next (.setCpuMode s _)

/-- An Execute runs its target as the instruction it is, or refuses it. -/
theorem runTarget_exec_or_undefined (i : Instr) (s : State) :
    runTarget i s = exec i s ∨ runTarget i s = raise .undefined s := by
  cases i
  case lear | la | lmap | tmapr | lpsd | lpsdcm | exr | exrr | exm | svc | rdsts | eae | dae | eci | dci | aci | daci | bei | uei |
      sio | tio | stpio | rschnl | hio | grio | rsctl | ecwcs | wcwcs => exact .inr rfl
  all_goals exact .inl rfl

theorem sound_runTarget (i : Instr) (s : State) : Outcome.Sound s (runTarget i s) := by
  rcases runTarget_exec_or_undefined i s with e | e
  · cases i
    case setcpu r => exact sound_setcpu r s
    case exr | exrr | exm => exact (stays_raise .undefined s).sound
    all_goals
      rw [e]
      exact (stays_exec (fun r => ⟨Instr.noConfusion, Instr.noConfusion, Instr.noConfusion⟩) (fun m => Instr.noConfusion) s).sound
  · rw [e]
    exact (stays_raise .undefined s).sound

/-- What an Execute does around its target leaves no Execute in progress. -/
theorem sound_executeTarget (c : Code) (s : State) : Outcome.Sound s (executeTarget c s) := by
  unfold executeTarget
  split
  · exact (stays_raise .undefined s).sound
  · rename_i i _
    have hr := sound_runTarget i { s with execDepth := true }
    cases e : runTarget i { s with execDepth := true } with
    | next t =>
      have ht := hr t e
      exact .next ⟨ht.cfg, ht.memory, ht.modes, ht.lock, ht.word2, fun _ => rfl⟩
    | fault f => rintro _ ⟨⟩
    | refused r => rintro _ ⟨⟩

theorem sound_executeRight (w : Word) (s : State) : Outcome.Sound s (executeRight w s) := by
  unfold executeRight
  split
  · exact sound_executeTarget _ s
  · exact (stays_raise .undefined s).sound

theorem sound_executeLeft (w : Word) (s : State) : Outcome.Sound s (executeLeft w s) := by
  unfold executeLeft
  split <;> exact sound_executeTarget _ s

/-- The rest of an instruction after an operation that keeps the invariants. -/
theorem Outcome.Sound.finish {α : Type} {s : State} {x : Res α} {k : α → State → Outcome} (hx : Yields Machine.Stays s x)
    (hk : ∀ a t, Outcome.Sound t (k a t)) : Outcome.Sound s (x.finish k) := by
  cases hx with
  | ok a h => exact .of_sound h.toSound (hk a _)
  | trap x h => exact .of_sound h.toSound (stays_raise x _).sound
  | stuck f => rintro _ ⟨⟩

theorem sound_exm (m : MemRef 19) (s : State) : Outcome.Sound s (execExm m s) := by
  have r := stays_storing.toReading
  refine .finish (r.effective s _) fun e t => .finish (r.load32 t _) fun w u => ?_
  show Outcome.Sound u (if e.ea.getLsbD 1 then executeRight w u else executeLeft w u)
  split
  · exact sound_executeRight w u
  · exact sound_executeLeft w u

/-- Every instruction. -/
theorem sound_exec (i : Instr) (s : State) : Outcome.Sound s (exec i s) := by
  cases i
  case setcpu r => exact sound_setcpu r s
  case exr r => exact sound_executeLeft _ s
  case exrr r => exact sound_executeRight _ s
  case exm m => exact sound_exm m s
  all_goals
    exact (stays_exec (fun r => ⟨Instr.noConfusion, Instr.noConfusion, Instr.noConfusion⟩) (fun m => Instr.noConfusion) s).sound

/-- Settles O14: every instruction keeps the invariants' relation, and all but four the control mode. -/
theorem modeChangesBySetcpuAlone : Obligations.ModeChangesBySetcpuAlone := fun i s t e =>
  ⟨(sound_exec i s t e).cfg, fun hc hm => (stays_exec hc hm s t e).mode⟩

/-! ## The privileged state -/

/-- The privileged state is as before. -/
def SamePriv (s t : State) : Prop := t.priv = s.priv

theorem samePriv_storing : Storing SamePriv where
  refl _ := rfl
  trans h k := Eq.trans k h
  marks _ _ _ _ _ _ _ := rfl
  arith _ _ := rfl
  transact := State.transact_priv
  poke8 _ _ _ := rfl
  lock h := h
  relock {s} _ := State.transact_priv { s with memLock := false }

theorem samePriv_system : System SamePriv where
  toReading := samePriv_storing.toReading
  own h := h.priv
  wcs _ _ _ _ := rfl

/-- SETCPU, for a relation that its fields respect. -/
theorem ends_setcpu {R : State → State → Prop} (h : Reading R) {s : State} (hs : ∀ v, R s (s.setCpuMode v)) (r : Reg) :
    Ends R s (exec (.setcpu r) s) := by
  show Ends R s (execSetcpu r s)
  refine Ends.privileged h ?_
  split
  · exact .raised _ (h.refl s)
  · exact .next (hs _)

/-- Settles O13: no operation but a PSD load touches the privileged state. -/
theorem privChangesByPsdLoadAlone : Obligations.PrivChangesByPsdLoadAlone := by
  intro i s t hl e hc
  suffices h : Ends SamePriv s (exec i s) from h.rel e hc
  cases hi : isOrdinary i with
  | true => exact samePriv_storing.exec hi s
  | false =>
    cases hs : mayStore i with
    | true => exact samePriv_storing.system samePriv_system hi hs hl s
    | false =>
      by_cases hr : ∃ r, i = .setcpu r
      · obtain ⟨r, rfl⟩ := hr
        exact ends_setcpu samePriv_storing.toReading (fun _ => rfl) r
      · exact samePriv_system.exec hi hs hl (fun r er => hr ⟨r, er⟩) s

/-! ## Memory -/

/-- With no bus agent's write to come, memory is as before and still none is to come. -/
def KeepsMem (s t : State) : Prop := s.bus = [] → t.bus = [] ∧ t.mem = s.mem

theorem keepsMem_loading : Loading KeepsMem where
  refl _ hb := ⟨hb, rfl⟩
  trans h k hb := ⟨(k (h hb).1).1, (k (h hb).1).2.trans (h hb).2⟩
  marks _ _ _ _ _ _ _ hb := ⟨hb, rfl⟩
  arith _ _ hb := ⟨hb, rfl⟩
  transact s hb := by rw [State.transact_of_bus hb]; exact ⟨hb, rfl⟩
  own h hb := ⟨h.bus.trans hb, h.mem⟩
  wcs _ _ _ _ hb := ⟨hb, rfl⟩
  psw _ _ hb := ⟨hb, rfl⟩
  psd _ h _ _ _ hb := h hb

/-- Settles O16: the operations of an instruction that stores nothing leave memory. -/
theorem nonStoringKeepsMemory : Obligations.NonStoringKeepsMemory := by
  intro i s t hb hs e hc a
  suffices h : Ends KeepsMem s (exec i s) by rw [(h.rel e hc hb).2]
  cases hi : isOrdinary i with
  | true => exact keepsMem_loading.toReading.exec hi hs s
  | false =>
    cases hl : mayLoadPsd i with
    | true => exact keepsMem_loading.exec hl hs s
    | false =>
      by_cases hr : ∃ r, i = .setcpu r
      · obtain ⟨r, rfl⟩ := hr
        exact ends_setcpu keepsMem_loading.toReading (fun _ hb => ⟨hb, rfl⟩) r
      · exact keepsMem_loading.toSystem.exec hi hs hl (fun r er => hr ⟨r, er⟩) s

/-! ## The frame of an ordinary instruction -/

/-- `s` with what an ordinary instruction may change taken from `u`. -/
def State.touched (s u : State) : State :=
  { s with
    regs := u.regs, cc := u.cc, pc := u.pc, mem := u.mem, parityBad := u.parityBad, spad := u.spad,
    pendingArith := u.pendingArith, memLock := u.memLock, noHalt := u.noHalt, stopHit := u.stopHit, freeIx := u.freeIx, bus := u.bus }

/-- An IPU's status bit 23 set by an arithmetic exception (60_exceptions.md R640). -/
def State.MarksArith (s t : State) : Prop :=
  s.cfg.role = .ipu ∧ s.aexp = true ∧ t.pendingArith = true ∧ t.spad = s.spad.set 0x91 (s.status ||| 0x100)

/-- Nothing else changes, a pending exception stays, and the scratchpad has no more than that bit new. -/
structure Framed (s t : State) : Prop where
  rest : t = s.touched t
  pending : s.pendingArith = true → t.pendingArith = true
  spad : t.spad = s.spad ∨ s.MarksArith t

/-- The bit set twice is set once. -/
theorem spad_marked_again {a b c : Vector Word 256} (hb : b = a.set 0x91 (a[0x91] ||| 0x100))
    (hc : c = b.set 0x91 (b[0x91] ||| 0x100)) : c = a.set 0x91 (a[0x91] ||| 0x100) := by
  subst hb hc
  rw [Vector.set_set, Vector.getElem_set_self, BitVec.or_assoc, BitVec.or_self]

theorem Framed.trans {s t u : State} (h : Framed s t) (k : Framed t u) : Framed s u where
  rest := calc
    u = t.touched u := k.rest
    _ = (s.touched t).touched u := congrArg (·.touched u) h.rest
    _ = s.touched u := rfl
  pending := k.pending ∘ h.pending
  spad := by
    have hcfg : t.cfg = s.cfg := (congrArg State.cfg h.rest :)
    have haexp : t.aexp = s.aexp := (congrArg State.aexp h.rest :)
    rcases h.spad with e | ⟨hr, ha, hp, hs⟩
    · rcases k.spad with e' | ⟨hr', ha', hp', hs'⟩
      · exact .inl (e'.trans e)
      · refine .inr ⟨hcfg ▸ hr', haexp ▸ ha', hp', ?_⟩
        rw [hs', State.status, State.status, e]
    · refine .inr ⟨hr, ha, k.pending hp, ?_⟩
      rcases k.spad with e' | ⟨-, -, -, hs'⟩
      · exact e'.trans hs
      · exact spad_marked_again hs hs'

/-- The scratchpad and the pending exception are not touched. -/
theorem Framed.of_rest {s t : State} (h : t = s.touched t) (hp : t.pendingArith = s.pendingArith) (hs : t.spad = s.spad) :
    Framed s t := ⟨h, fun e => hp.trans e, .inl hs⟩

theorem Framed.transact (s : State) : Framed s s.transact := by
  rw [State.transact_frame]
  exact .of_rest rfl rfl rfl

theorem Framed.arith (s : State) (ae : Bool) : Framed s (s.arithException ae) where
  rest := rfl
  pending h := by rw [State.arithException, h, Bool.true_or]
  spad := by
    cases hd : s.arithDue ae && decide (s.cfg.role = .ipu) with
    | false => exact .inl (if_neg (by rw [hd]; exact Bool.false_ne_true))
    | true =>
      simp only [State.arithDue, Bool.and_eq_true, decide_eq_true_eq, Bool.or_eq_true] at hd
      obtain ⟨⟨hae, ha⟩, hr⟩ := hd
      have haexp : s.aexp = true := by
        rcases ha with ha | ⟨hc, -⟩
        · exact ha
        · rw [hr] at hc; cases hc
      refine .inr ⟨hr, haexp, ?_, ?_⟩
      · simp only [State.arithException, State.arithDue, hae, haexp, Bool.true_or, Bool.and_true, Bool.or_true]
      · simp only [State.arithException, State.arithDue, hae, haexp, hr, Bool.true_or, Bool.and_true, decide_true, if_true]
        rfl

theorem framed_storing : Storing Framed where
  refl _ := .of_rest rfl rfl rfl
  trans := Framed.trans
  marks _ _ _ _ _ _ _ := .of_rest rfl rfl rfl
  arith := Framed.arith
  transact := Framed.transact
  poke8 _ _ _ := .of_rest rfl rfl rfl
  lock {s t} h := ⟨congrArg (fun x : State => { x with memLock := false }) h.rest, h.pending, h.spad⟩
  relock {s} _ := by
    have h := Framed.transact { s with memLock := false }
    exact ⟨congrArg (fun x : State => { x with memLock := true }) h.rest, h.pending, h.spad⟩

/-- Settles O15: the frame is a relation that every shared operation of an ordinary instruction respects. -/
theorem ordinaryInstructionFrame : Obligations.OrdinaryInstructionFrame := fun _ s _ hi e hc =>
  have h := (framed_storing.exec hi s).rel e hc
  ⟨h.rest, h.spad⟩

end Sys2Proof.Machine
end

section
/-! PROOFS. One step: what the panel, the outside world, the boundary and the fetch keep of the machine's invariant, and the
invariant itself. -/

namespace Sys2Proof.Machine

/-! ## The panel and the outside world -/

theorem Sound.of_core {s t : State} (h : SameCore s t) : Sound s t := (Stays.of_core h).toSound

theorem Sound.operatorError (s : State) (n : BitVec 4) : Sound s (s.operatorError n) := .of_core {}
theorem Sound.setB (s : State) (v : Word) : Sound s (s.setB v) := .of_core {}
theorem Sound.setA (s : State) (k : ADisplay) (v : Word) : Sound s (s.setA k v) := .of_core {}
theorem Sound.incA (s : State) : Sound s s.incA := .of_core {}

theorem Sound.memoryError (s : State) (e : MemError) : Sound s (s.memoryError e) := by
  cases e <;> exact .of_core {}

/-- A key that the lock disables. -/
theorem sound_unlocked {k : State → State} (hk : ∀ t, Sound t (k t)) (s : State) : Sound s (unlocked k s) := by
  unfold unlocked
  split
  · exact .operatorError s 2
  · exact Sound.trans (.of_core {}) (hk s.keyPressed)

/-- A key of the Halt mode. -/
theorem sound_halted {k : State → State} (hk : ∀ t, Sound t (k t)) (s : State) : Sound s (halted k s) :=
  sound_unlocked (fun t => by
    split
    · exact hk t
    · exact .operatorError t 2) s

theorem Sound.panelRun (s : State) (b : Bool) : Sound s (s.panelRun b) := by
  unfold State.panelRun
  split
  · exact .of_core {}
  · exact .operatorError s 2

theorem Sound.runHalt (s : State) : Sound s s.runHalt := by
  unfold State.runHalt
  split
  · exact .panelRun s false
  · exact .of_core {}
  · exact .of_core {}
  · exact .panelRun s false

/-- SYSTEM RESET keeps memory and WCS and leaves a state at rest (10_state.md R70). -/
theorem Sound.systemReset (s : State) : Sound s s.systemReset where
  cfg := rfl
  memory := id
  modes _ := by
    refine ⟨fun hr => ?_, fun _ => rfl⟩
    show Config.resetMode s.cfg = .psd
    unfold Config.resetMode
    rw [show s.cfg.role = .ipu from hr]
  lock := .inr rfl
  word2 _ := BitVec.zero_and
  depth _ := rfl

theorem Sound.iplWrites : ∀ (l : List (Addr × Word)) (s : State), Sound s (State.iplWrites l s).1
  | [], s => .refl s
  | (a, w) :: l, s => by
    unfold State.iplWrites
    split
    · rename_i t e
      rw [State.realWrite_ok e]
      exact (stays_storing.poke32 s a w).toSound.trans (iplWrites l _)
    · exact iplWrites l s

/-- The mode an IPL selects, on a CPU, with mapping ended by PSW mode (10_state.md R43). -/
theorem Sound.iplMode {s : State} (hr : s.cfg.role = .cpu) (m : Mode) :
    Sound s { s with mode := m, mapped := s.mapped && decide (m = .psd) } where
  cfg := rfl
  memory := id
  modes _ := by
    refine ⟨fun h => ?_, fun h => ?_⟩
    · rw [show s.cfg.role = .ipu from h] at hr; cases hr
    · rw [show m = .psw from h]
      exact Bool.and_false _
  lock := .inl rfl
  word2 := id
  depth := id

theorem Sound.ipl (s : State) : Sound s s.ipl := by
  unfold State.ipl
  split
  · exact .operatorError s 2
  · rename_i hr
    have h1 := (Sound.iplMode hr (s.iplMode s.panel.bDisplay)).trans
      (.iplWrites (Config.iplLoad (s.iplDevice s.panel.bDisplay)).writes _)
    have h2 (t : State) (pc : BitVec 18) : Sound t { t with pc := pc, runState := .halt } := .of_core {}
    simp only
    split
    · exact (h1.trans (h2 _ _)).trans (Stays.orStatus _ _).toSound
    · exact h1.trans (h2 _ _)

theorem Sound.showReg (s : State) (r : Reg) : Sound s (s.showReg r) := by
  unfold State.showReg
  split
  · exact .setB s _
  · exact .setA s _ _

theorem Sound.panelPsd1 (s : State) (v : Word) : Sound s (s.panelPsd1 v) := by
  unfold State.panelPsd1
  split
  · exact (Stays.setPsw s v).toSound
  · exact (Stays.setPsw s v).toSound.trans (.of_core {})

theorem Sound.panelPsd2 (s : State) (v : Word) : Sound s (s.panelPsd2 v) := by
  unfold State.panelPsd2
  split
  · exact .operatorError s 3
  · rename_i hm
    exact
      { cfg := rfl
        memory := id
        modes := fun hs => ⟨hs.1, fun e => by rw [show s.mode = .psw from e] at hm; cases hm⟩
        lock := .inl rfl
        word2 := fun _ => psd2_masked v
        depth := id }

theorem Sound.showPsd2 (s : State) : Sound s s.showPsd2 := by
  unfold State.showPsd2
  split
  · exact .operatorError s 3
  · exact .setB s _

theorem Sound.atA {s : State} {k : Addr → State} (hk : ∀ a, Sound s (k a)) : Sound s (s.atA k) := by
  unfold State.atA
  split
  · exact hk _
  · exact .operatorError s 4

theorem Sound.panelRead (s : State) : Sound s s.panelRead := .atA fun _ => by
  split
  · exact .setB s _
  · exact .memoryError s _

theorem Sound.panelWrite (s : State) (v : Word) : Sound s (s.panelWrite v) := .atA fun a => by
  split
  · rename_i t e
    rw [State.realWrite_ok e]
    exact (stays_storing.poke32 s a v).toSound
  · exact .memoryError s _

theorem Sound.panelTrap (s : State) (t : Trap) : Sound s (s.panelTrap t) := by
  unfold State.panelTrap
  split
  · exact .memoryError s _
  · exact .memoryError s _
  · exact .operatorError s 4

theorem Sound.panelEffective (s : State) : Sound s s.panelEffective := by
  unfold State.panelEffective
  split
  · split
    · exact .setB s _
    · exact .panelTrap s _
    · exact .operatorError s 4
  · exact .operatorError s 4
  · exact .operatorError s 4
  · exact .panelTrap s _

theorem Sound.panelConvert (s : State) (a : Addr) : Sound s (s.panelConvert a) := by
  unfold State.panelConvert
  split
  · exact .operatorError s 2
  · split
    · exact .setB s _
    · exact .operatorError s 4

theorem Sound.stopKey (s : State) (k : StopKind) (a : Addr) : Sound s (s.stopKey k a) := by
  cases k <;> exact .of_core {}

theorem Sound.requestLevel (s : State) (l : Level) : Sound s (s.requestLevel l) := by
  unfold State.requestLevel
  split
  · split
    · exact .of_core {}
    · exact .refl s
  · exact .refl s

theorem Sound.timerRequest (s : State) (l : Level) : Sound s (s.timerRequest l) := by
  unfold State.timerRequest
  split
  · exact .refl s
  · exact .requestLevel s l

theorem Sound.powerEvent (s : State) (b : Bool) : Sound s (s.powerEvent b) := by
  have h1 : Sound s (if b then s.orStatus (statusBit 27) else s) := by
    split
    · exact (Stays.orStatus s _).toSound
    · exact .refl s
  unfold State.powerEvent
  simp only
  split
  · exact h1.trans (.of_core {})
  · exact h1.trans (.of_core {})
  · exact .refl s

theorem Sound.markParity (s : State) (a : Addr) : Sound s (s.markParity a) := by
  unfold State.markParity
  split
  · exact .refl s
  · exact .of_core {}

/-- Every event of the outside world. -/
theorem sound_hostEvent (e : HostEvent) (s : State) : Sound s (hostEvent e s) := by
  cases e with
  | runHaltKey => exact sound_unlocked .runHalt s
  | instrStepKey => exact sound_halted (fun t => .panelRun t true) s
  | systemResetKey =>
    show Sound s s.resetKey
    unfold State.resetKey
    split
    · exact sound_halted .systemReset s
    · exact sound_unlocked .systemReset s
  | iplKey => exact sound_halted .ipl s
  | loadBDisplay v => exact sound_unlocked (fun t => .setB t v) s
  | readReg r => exact sound_halted (fun t => .showReg t r) s
  | writeReg r v => exact sound_halted (fun t => (stays_storing.setReg t r v).toSound) s
  | readPsd1 => exact sound_halted (fun t => .setA t _ _) s
  | writePsd1 v => exact sound_halted (fun t => .panelPsd1 t v) s
  | readPsd2 => exact sound_halted .showPsd2 s
  | writePsd2 v => exact sound_halted (fun t => .panelPsd2 t v) s
  | readPc => exact sound_halted (fun t => .setA t _ _) s
  | writePc v => exact sound_halted (fun _ => .of_core {}) s
  | writeMemAddress v => exact sound_unlocked (fun t => .setA t _ v) s
  | readMem => exact sound_halted .panelRead s
  | incReadMem => exact sound_halted (fun t => (Sound.incA t).trans (.panelRead _)) s
  | writeMem v => exact sound_halted (fun t => .panelWrite t v) s
  | writeIncMem v => exact sound_halted (fun t => (Sound.panelWrite t v).trans (.incA _)) s
  | readCsw | writeCsw | panelLock | timerCounts | ipuStart | ipuDone => exact .of_core {}
  | busBetween l => exact ⟨rfl, id, id, .inl rfl, id, id⟩
  | stopKey k a => exact sound_halted (fun t => .stopKey t k a) s
  | readEffectiveAddress => exact sound_halted .panelEffective s
  | convertAddress a => exact sound_halted (fun t => .panelConvert t a) s
  | attentionKey | request => exact .requestLevel s _
  | clockOverrideKey =>
    have flip (t : State) : Sound t { t with panel := { t.panel with clockOverride := !t.panel.clockOverride } } := .of_core {}
    exact sound_unlocked flip s
  | clockTick | timerExpired => exact .timerRequest s _
  | powerFail b => exact .powerEvent s b
  | parityError a => exact .markParity s a
  | busWrite a b => exact (stays_storing.busWrites [(a, b)] s).toSound

/-! ## The boundary -/

/-- An entry or the state in which to go on, within the invariants' relation. -/
inductive Between.Sound (s : State) : Between → Prop
  | entered {o : Outcome} (h : Outcome.Sound s o) : Between.Sound s (.entered o)
  | pass {t : State} (h : Machine.Sound s t) : Between.Sound s (.pass t)

/-- A trap entered in PSD mode, after marks of the state are reset. -/
theorem sound_trapEntry {s t : State} (h : SameCore s t) (hm : s.mode = .psd) (n : Nat) (x : Trap) :
    Outcome.Sound s (.next (trapEntry n x t)) :=
  .next ((Sound.of_core h).trans (Stays.trapEntry n x t fun _ => h.mode.trans hm).toSound)

theorem sound_takePowerFail (s : State) : Outcome.Sound s (takePowerFail s) := by
  unfold takePowerFail
  split
  · exact sound_trapEntry {} ‹_› _ _
  · exact .next (.of_core {})

theorem sound_takeTimeout (s : State) : Outcome.Sound s (takeTimeout s) := by
  unfold takeTimeout
  split
  · exact sound_trapEntry {} ‹_› _ _
  · exact .next (.of_core {})

theorem sound_takeArithmetic (s : State) : Outcome.Sound s (takeArithmetic s) := by
  have h : Sound s { s with pendingArith := false } := .of_core {}
  unfold takeArithmetic
  split
  · rename_i hr
    exact .of_sound h (stays_ipuError (s := { s with pendingArith := false }) hr _).sound
  · split
    · exact sound_trapEntry {} ‹_› _ _
    · exact .next (h.trans (Stays.pswTrap _ _).toSound)

theorem sound_takeStartIpu {s : State} (hr : s.cfg.role = .ipu) : Outcome.Sound s (takeStartIpu s) :=
  .of_sound (Sound.of_core (t := { s with ipuStartPending := false }) {})
    (stays_ipuTrap (s := { s with ipuStartPending := false }) hr _).sound

theorem sound_takeEndOfIpu {s t : State} (h : SameCore s t) (hd : t.endOfIpuDue = true) :
    Outcome.Sound s (takeEndOfIpu t) := by
  have hm : t.mode = .psd := by
    simp only [State.endOfIpuDue, Bool.and_eq_true, decide_eq_true_eq] at hd
    exact hd.1.1.2
  have h1 : SameCore t { t with ipuDonePending := false } := {}
  exact .of_sound (Sound.of_core h) (sound_trapEntry h1 hm _ _)

theorem sound_cpuInterrupts (s : State) : Between.Sound s (cpuInterrupts s) := by
  unfold cpuInterrupts
  split
  · split
    · rename_i hd
      refine .entered (sound_takeEndOfIpu {} ?_)
      exact hd
    · exact .pass (.of_core {})
  · split
    · exact .pass (.refl s)
    · split
      · exact .entered (.next (Stays.interruptEntry _ s).toSound)
      · split
        · exact .entered (sound_takeEndOfIpu {} ‹_›)
        · exact .pass (.refl s)

theorem sound_boundary (s : State) : Between.Sound s (boundary s) := by
  have halt : Between.Sound s (.pass s.panelHalt) := .pass (.of_core {})
  unfold boundary
  split
  · unfold cpuBoundary
    split
    · exact .entered (sound_takePowerFail s)
    · split
      · exact .entered (sound_takeTimeout s)
      · split
        · exact .entered (sound_takeArithmetic s)
        · split
          · exact halt
          · exact sound_cpuInterrupts s
  · rename_i hr
    unfold ipuBoundary
    split
    · exact .entered (sound_takeArithmetic s)
    · split
      · exact .entered (sound_takeStartIpu hr)
      · split
        · exact halt
        · exact .pass (.of_core {})

/-! ## The instruction -/

theorem Sound.advance (s : State) (n : BitVec 18) : Sound s (s.advance n) := ⟨rfl, id, id, .inl rfl, id, id⟩

theorem Sound.fetchTrapped (s : State) (t : Trap) (n : BitVec 18) : Sound s (s.fetchTrapped t n) := by
  unfold State.fetchTrapped
  split
  · exact .advance s n
  · exact ⟨rfl, id, id, .inl rfl, id, id⟩

theorem Sound.noteFetch (s : State) (a : Addr) : Sound s (s.noteFetch a) := .of_core {}

/-- The instruction of a fetch, from the state in which it was fetched. -/
theorem sound_runFetched (s : State) : Outcome.Sound s (runFetched s.fetchNow) := by
  have undefined (t : State) (h : Sound s t) (n : BitVec 18) : Outcome.Sound s (raise .undefined (t.advance n)) :=
    .of_sound (h.trans (.advance t n)) (stays_raise _ _).sound
  have code (c : Code) (pa : Addr) : Outcome.Sound s (runFetched (.code c (s.noteFetch pa))) := by
    unfold runFetched
    simp only
    split
    · exact .of_sound ((Sound.noteFetch s pa).trans (.advance _ _)) (sound_exec _ _)
    · exact undefined _ (.noteFetch s pa) _
  have trap (t : Trap) (n : BitVec 18) : Outcome.Sound s (runFetched (.trap t n s)) :=
    .of_sound (.fetchTrapped s t n) (stays_raise _ _).sound
  unfold State.fetchNow
  split
  · exact trap _ _
  · split
    · exact code _ _
    · split
      · exact undefined _ (.noteFetch s _) _
      · split
        · exact trap _ _
        · exact code _ _

theorem Sound.finishInstruction (s : State) (b : Bool) : Sound s (s.finishInstruction b) := by
  have h1 : Sound s (s.countBlocked b) := by
    unfold State.countBlocked
    split
    · exact .of_core {}
    · exact .refl s
  have h2 : Sound s (s.countBlocked b).watchdog := h1.trans (.of_core {})
  unfold State.finishInstruction State.checkStop
  split
  · exact h2.trans (.of_core {})
  · exact h2

theorem sound_instructionStep (s : State) : Outcome.Sound s (instructionStep s) := by
  have hr : Outcome.Sound s (runFetched s.fetch) := .of_sound (Stays.transact s).toSound (sound_runFetched _)
  unfold instructionStep
  cases e : runFetched s.fetch with
  | next t => exact .next ((hr t e).trans (.finishInstruction t _))
  | fault f => rintro _ ⟨⟩
  | refused r => rintro _ ⟨⟩

theorem sound_cycle (s : State) : Outcome.Sound s (cycle s) := by
  have hb := sound_boundary s
  unfold cycle
  split
  · rename_i o e
    rw [e] at hb
    cases hb with | entered h => exact h
  · rename_i t e
    rw [e] at hb
    cases hb with | pass h => ?_
    split
    · exact .of_sound h (sound_instructionStep t)
    · exact .next h

theorem sound_processorStep (s : State) : Outcome.Sound s (processorStep s) := by
  have hi : Outcome.Sound s (idle s) := by
    unfold idle
    split
    · rename_i h
      exact sound_takeStartIpu h.1
    · exact .next (.refl s)
  unfold processorStep
  split
  · exact sound_cycle s
  · exact sound_cycle s
  · exact hi
  · exact hi

/-- One step keeps the configuration and each part of the machine's invariant. -/
theorem sound_step (s : State) : Outcome.Sound s (step s) := by
  have hs (o : Outcome) (ho : Outcome.Sound s o) : Outcome.Sound s (mirrorOutcome s o) := by
    cases o with
    | next t =>
      have hm : Sound t (t.mirrorStatus s) := by
        unfold State.mirrorStatus
        split
        · exact .refl t
        · exact .of_core {}
      exact .next ((ho t rfl).trans hm)
    | fault f => rintro _ ⟨⟩
    | refused r => rintro _ ⟨⟩
  refine hs _ ?_
  split
  · exact .next (Sound.trans (.of_core {}) (sound_hostEvent _ _))
  · exact sound_processorStep s

/-- Settles O11, by what each part of a step keeps. -/
theorem stepKeepsMemoryForm : Obligations.StepKeepsMemoryForm := fun s t hs e => (sound_step s t e).memory hs

/-- Settles O12, by what each part of a step keeps. -/
theorem stepKeepsModesAndRest : Obligations.StepKeepsModesAndRest := by
  intro s t hm hr e
  have h := sound_step s t e
  obtain ⟨hd, hl, hw⟩ := hr
  refine ⟨h.modes hm, h.depth hd, ?_, h.word2 hw⟩
  rcases h.lock with e | e
  · exact e.trans hl
  · exact e

/-- Settles O10: what reset sets. -/
theorem resetInv : Obligations.ResetInv := by
  intro c
  refine ⟨⟨rfl, rfl⟩, ⟨fun hr => ?_, fun _ => rfl⟩, rfl, rfl, BitVec.zero_and⟩
  show Config.resetMode c = .psd
  unfold Config.resetMode
  rw [show c.role = .ipu from hr]

end Sys2Proof.Machine
end

section
/-! PROOFS. The checks before an instruction, the vector locations, the instructions that set one bit of the program status
or the latches of a level, the transfers with special registers, and CD and TD. -/

namespace Sys2Proof
open Machine

/-- Settles O18: each instruction begins with its checks, in their order. -/
theorem checksBeforeExecution : Obligations.ChecksBeforeExecution := by
  intro i s
  refine ⟨fun hp hm => ?_, fun hc hr => ?_, fun hv hi hp hc hj => ?_, fun hv hr => ?_⟩
  · cases i
    case lear | la | lmap | tmapr | lpsd | lpsdcm | svc | eae | dae | eci | dci | aci | daci | bei | uei | sio | tio | stpio |
        rschnl | hio | grio | rsctl | ecwcs | wcwcs => exact psdOnly_psw hm
    all_goals exact Bool.noConfusion hp
  · cases hm : s.mode with
    | psd =>
      cases i
      case bri | ei | di | ri | ai | dai | cd | td => exact cpuOnly_ipu hr
      case eci | dci | aci | daci | bei | sio | tio | stpio | rschnl | hio | grio | rsctl | ecwcs | wcwcs =>
        exact (psdOnly_psd hm).trans (cpuOnly_ipu hr)
      all_goals exact Bool.noConfusion hc
    | psw =>
      cases i
      case bri | ei | di | ri | ai | dai | cd | td => exact cpuOnly_ipu hr
      case eci | dci | aci | daci | bei | sio | tio | stpio | rschnl | hio | grio | rsctl | ecwcs | wcwcs =>
        exact psdOnly_psw hm
      all_goals exact Bool.noConfusion hc
  · cases i
    case tscr | trsc | trp | wwcs | rwcs | halt | setcpu => exact privileged_no hv
    case lear | lmap | tmapr | lpsd | lpsdcm | eae | dae | uei => exact (psdOnly_psd (hp rfl)).trans (privileged_no hv)
    case bri | ei | di | ri | ai | dai | cd | td => exact (cpuOnly_cpu (hc rfl)).trans (privileged_no hv)
    case eci | dci | aci | daci | bei | sio | tio | stpio | rschnl | hio | grio | rsctl | ecwcs | wcwcs =>
      exact (psdOnly_psd (hp rfl)).trans ((cpuOnly_cpu (hc rfl)).trans (privileged_no hv))
    case rdsts d =>
      show execRdsts d s = _
      rw [execRdsts, if_pos (hj d rfl)]
      exact privileged_no hv
    all_goals exact Bool.noConfusion hi
  · show execWait s = _
    unfold execWait
    rw [hr]
    exact privileged_no hv

/-- Settles O19: the vector of each trap, and of each range of levels. -/
theorem vectorTable : Obligations.VectorTable := by
  have low (l : Level) (h1 : 0x14 ≤ l.toNat) (h2 : l.toNat ≤ 0x23) : (levelVector l).toNat = 0x140 + 4 * (l.toNat - 0x14) := by
    rw [levelVector, if_neg (by omega), if_neg (by omega), if_neg (by omega), if_neg (by omega), if_pos (by omega),
      BitVec.toNat_ofNat]
    omega
  have high (l : Level) (h1 : 0x24 ≤ l.toNat) : (levelVector l).toNat = 0x190 + 4 * (l.toNat - 0x24) := by
    have := l.isLt
    rw [levelVector, if_neg (by omega), if_neg (by omega), if_neg (by omega), if_neg (by omega), if_neg (by omega),
      BitVec.toNat_ofNat]
    omega
  exact ⟨rfl, fun _ => rfl, fun _ => rfl, rfl, rfl, fun _ => rfl, fun _ => rfl, fun _ => rfl, rfl, rfl, rfl, rfl, rfl, rfl, rfl,
    low, high⟩

/-- Settles O36: SEA, CEA, EAE and DAE by their checks. -/
theorem statusBitInstructionsComplete : Obligations.StatusBitInstructionsComplete := by
  intro s
  exact ⟨rfl, rfl, rfl, rfl, rfl, psdOnly_psw, psdOnly_psd, rfl, psdOnly_psw, psdOnly_psd⟩

/-- Settles O56: BEI and UEI by their checks. -/
theorem blockingInstructionsComplete : Obligations.BlockingInstructionsComplete := by
  intro s
  refine ⟨rfl, rfl, fun h => ⟨psdOnly_psw h, psdOnly_psw h⟩, fun h hr => (psdOnly_psd h).trans (cpuOnly_ipu hr),
    fun h hr => ?_, psdOnly_psd⟩
  rw [show exec .bei s = _ from (psdOnly_psd h).trans (cpuOnly_cpu hr), privileged, State.setBlocked, Bool.true_and]

end Sys2Proof
end

section
/-! PROOFS. Memory as data: what a read returns after a byte, halfword or word is written (20_memory.md R81, R82). -/

namespace Sys2Proof.Machine

section
variable {s : State} (hm : Memory.wf s.mem = true)
include hm

theorem read_poke8 (a x : Addr) (b : Byte) :
    Memory.read (s.poke8 a b).mem x.toNat = if x = a then b else Memory.read s.mem x.toNat := by
  rw [show (s.poke8 a b).mem = Memory.write s.mem a.toNat b from rfl, Memory.read_write hm]
  simp only [BitVec.toNat_inj]

theorem read_poke16 (a x : Addr) (v : Half) :
    Memory.read (s.poke16 a v).mem x.toNat =
      if x = a + 1 then v.extractLsb' 0 8 else if x = a then v.extractLsb' 8 8 else Memory.read s.mem x.toNat := by
  rw [State.poke16, read_poke8 (State.poke8_wf hm), read_poke8 hm]

theorem read_poke32 (a x : Addr) (v : Word) :
    Memory.read (s.poke32 a v).mem x.toNat =
      if x = a + 3 then v.extractLsb' 0 8 else if x = a + 2 then v.extractLsb' 8 8
      else if x = a + 1 then v.extractLsb' 16 8 else if x = a then v.extractLsb' 24 8 else Memory.read s.mem x.toNat := by
  have h3 : a + 2 + 1 = a + 3 := by bv_omega
  rw [State.poke32, read_poke16 (State.poke16_wf hm), read_poke16 hm, h3]
  rw [extract_extract v (by decide), extract_extract v (by decide), extract_extract v (by decide), extract_extract v (by decide)]

/-! ## The bytes written -/

theorem read16_poke16 (a : Addr) (v : Half) : Memory.read16 (s.poke16 a v).mem a = v := by
  have h1 : a ≠ a + 1 := by bv_omega
  rw [Memory.read16, read_poke16 hm, read_poke16 hm, if_neg h1, if_pos rfl, if_pos rfl]
  exact append_extract 8 v

theorem read32_poke32 (a : Addr) (v : Word) : Memory.read32 (s.poke32 a v).mem a = v := by
  have h1 : a ≠ a + 1 := by bv_omega
  have h2 : a + 2 ≠ a + 2 + 1 := by bv_omega
  have upper : Memory.read16 (s.poke32 a v).mem a = v.extractLsb' 16 16 := by
    rw [Memory.read16, read_poke32 hm, read_poke32 hm, if_neg (by bv_omega), if_neg (by bv_omega), if_neg h1, if_pos rfl,
      if_neg (by bv_omega), if_neg (by bv_omega), if_pos rfl]
    have h := append_extract 8 (v.extractLsb' 16 16)
    rw [extract_extract v (by decide), extract_extract v (by decide)] at h
    exact h
  have lower : Memory.read16 (s.poke32 a v).mem (a + 2) = v.extractLsb' 0 16 := read16_poke16 (State.poke16_wf hm) _ _
  rw [Memory.read32, upper, lower]
  exact append_extract 16 v

/-! ## The bytes outside -/

theorem sameBytesOutside_poke8 (a : Addr) (b : Byte) : SameBytesOutside s (s.poke8 a b) a 1 := by
  intro x hx
  have h0 := hx 0 (by omega)
  rw [BitVec.add_zero] at h0
  rw [read_poke8 hm, if_neg h0]

theorem sameBytesOutside_poke16 (a : Addr) (v : Half) : SameBytesOutside s (s.poke16 a v) a 2 := by
  intro x hx
  have h0 := hx 0 (by omega)
  rw [BitVec.add_zero] at h0
  have h1 : x ≠ a + 1 := hx 1 (by omega)
  rw [read_poke16 hm, if_neg h1, if_neg h0]

theorem sameBytesOutside_poke32 (a : Addr) (v : Word) : SameBytesOutside s (s.poke32 a v) a 4 := by
  intro x hx
  have h0 := hx 0 (by omega)
  rw [BitVec.add_zero] at h0
  have h1 : x ≠ a + 1 := hx 1 (by omega)
  have h2 : x ≠ a + 2 := hx 2 (by omega)
  have h3 : x ≠ a + 3 := hx 3 (by omega)
  rw [read_poke32 hm, if_neg h3, if_neg h2, if_neg h1, if_neg h0]

end

/-- A word whose four bytes read as before. -/
theorem read32_congr {m n : List Host.Cell} {a : Addr}
    (h : ∀ k, k < 4 → Memory.read m (a + BitVec.ofNat 24 k).toNat = Memory.read n (a + BitVec.ofNat 24 k).toNat) :
    Memory.read32 m a = Memory.read32 n a := by
  have h0 := h 0 (by omega)
  rw [BitVec.add_zero] at h0
  have h1 : Memory.read m (a + 1).toNat = Memory.read n (a + 1).toNat := h 1 (by omega)
  have h2 : Memory.read m (a + 2).toNat = Memory.read n (a + 2).toNat := h 2 (by omega)
  have h3 : Memory.read m (a + 2 + 1).toNat = Memory.read n (a + 2 + 1).toNat := by
    rw [BitVec.add_assoc]
    exact h 3 (by omega)
  rw [Memory.read32, Memory.read32, Memory.read16, Memory.read16, Memory.read16, Memory.read16, h0, h1, h2, h3]

theorem SameBytesOutside.trans {s t u : State} {a : Addr} {n : Nat} (h : SameBytesOutside s t a n)
    (k : SameBytesOutside t u a n) : SameBytesOutside s u a n := fun x hx => (k x hx).trans (h x hx)

/-- The part of a vector from a bit on, as a number. -/
theorem extract_eq_ofNat {n : Nat} (v : BitVec n) (k j : Nat) : v.extractLsb' k j = BitVec.ofNat j (v.toNat / 2 ^ k) := by
  apply BitVec.eq_of_toNat_eq
  rw [BitVec.extractLsb'_toNat, BitVec.toNat_ofNat, Nat.shiftRight_eq_div_pow]

end Sys2Proof.Machine

namespace Sys2Proof
open Machine

/-- Settles O4, by what a read returns after a write. -/
theorem memoryReadAfterWrite : Obligations.MemoryReadAfterWrite := by
  intro s a ⟨hm, _⟩
  refine ⟨fun b => ⟨?_, sameBytesOutside_poke8 hm a b⟩, fun v => ⟨read16_poke16 hm a v, ?_, sameBytesOutside_poke16 hm a v⟩,
    fun v => ⟨read32_poke32 hm a v, ?_, ?_, sameBytesOutside_poke32 hm a v⟩⟩
  · rw [read_poke8 hm, if_pos rfl]
  · rw [read_poke16 hm, if_neg (by bv_omega), if_pos rfl, extract_eq_ofNat]
  · rw [read_poke32 hm, if_neg (by bv_omega), if_neg (by bv_omega), if_neg (by bv_omega), if_pos rfl, extract_eq_ofNat]
  · rw [read_poke32 hm, if_pos rfl, extract_eq_ofNat, pow_zero, Nat.div_one]

end Sys2Proof
end

section
/-! PROOFS. Translation, protection and the checks of an access; the effective address and the operand it selects. -/

namespace Sys2Proof
namespace Machine

/-! ## Vectors of bits as numbers -/

theorem getLsbD_eq_decide {n : Nat} (v : BitVec n) (k : Nat) : v.getLsbD k = decide (v.toNat / 2 ^ k % 2 = 1) := by
  rw [BitVec.getLsbD, Nat.testBit_eq_decide_div_mod_eq]

theorem extract_toNat {n : Nat} (v : BitVec n) (k j : Nat) : (v.extractLsb' k j).toNat = v.toNat / 2 ^ k % 2 ^ j := by
  rw [BitVec.extractLsb'_toNat, Nat.shiftRight_eq_div_pow]

theorem extract_ne_zero_iff {n : Nat} (v : BitVec n) (k j : Nat) : v.extractLsb' k j ≠ 0 ↔ v.toNat / 2 ^ k % 2 ^ j ≠ 0 := by
  rw [← extract_toNat, Ne, Ne, BitVec.toNat_eq]
  rfl

theorem append_toNat {n m : Nat} (a : BitVec n) (b : BitVec m) : (a ++ b).toNat = a.toNat * 2 ^ m + b.toNat := by
  rw [BitVec.toNat_append, Nat.shiftLeft_eq, ← Nat.shiftLeft_eq, Nat.shiftLeft_add_eq_or_of_lt b.isLt]

/-- An address with its low bits cleared. -/
theorem and_clear_low (a : Addr) {k : Nat} {mask : Addr} (hm : mask = (BitVec.allOnes 24 >>> k) <<< k) :
    a &&& mask = BitVec.ofNat 24 (a.toNat / 2 ^ k * 2 ^ k) := by
  have h : a &&& mask = (a >>> k) <<< k := by
    subst hm
    ext i hi
    by_cases hk : i < k
    · simp [hk]
    · have e : k + (i - k) = i := by omega
      simp [hk, e, hi, -BitVec.reduceAllOnes]
  rw [h]
  apply BitVec.eq_of_toNat_eq
  rw [BitVec.toNat_shiftLeft, BitVec.toNat_ushiftRight, BitVec.toNat_ofNat, Nat.shiftRight_eq_div_pow, Nat.shiftLeft_eq]

theorem wordAddr_eq (a : Addr) : wordAddr a = BitVec.ofNat 24 (a.toNat / 4 * 4) := and_clear_low a (k := 2) rfl

theorem doubleAddr_eq (a : Addr) : doubleAddr a = BitVec.ofNat 24 (a.toNat / 8 * 8) := and_clear_low a (k := 3) rfl

/-! ## Translation and protection -/

section
variable {s : State} {la : Addr}

theorem translate_unmapped (h : s.mapped = false) : s.translate la = some la := if_pos h

theorem translate_beyond (h : s.mapped = true) (hla : 0x100000 ≤ la.toNat) : s.translate la = none := by
  have hx : la.extractLsb' 20 4 ≠ 0 := (extract_ne_zero_iff _ _ _).2 (by omega)
  rw [State.translate, if_neg (by rw [h]; decide), if_pos hx]

theorem mapEntry_eq {i : Nat} (h : i < 32) (hi : la.toNat / 0x8000 = i) : s.mapEntry la = s.map[i] := by
  have e : (la.extractLsb' 15 5).toNat = i := by rw [extract_toNat]; omega
  unfold State.mapEntry
  simp only [e]

theorem translate_mapped (h : s.mapped = true) {i : Nat} (hi : i < 32) (hla : la.toNat / 0x8000 = i) :
    s.translate la = if s.map[i].toNat < 0x8000 then none
      else some (BitVec.ofNat 24 (s.map[i].toNat % 512 * 0x8000 + la.toNat % 0x8000)) := by
  have hx : ¬la.extractLsb' 20 4 ≠ 0 := by rw [extract_ne_zero_iff]; omega
  have hv : (s.map[i].getLsbD 15 = false) ↔ s.map[i].toNat < 0x8000 := by
    rw [getLsbD_eq_decide, decide_eq_false_iff_not]; omega
  rw [State.translate, if_neg (by rw [h]; decide), if_neg hx, mapEntry_eq hi hla]
  simp only [hv]
  split
  · rfl
  · refine congrArg some (BitVec.eq_of_toNat_eq ?_)
    rw [append_toNat, extract_toNat, extract_toNat, BitVec.toNat_ofNat]
    omega

theorem writeProtected_priv (h : s.priv = true) : s.writeProtected la = false := if_pos h

theorem writeProtected_mapped (h : s.priv = false) (hm : s.mapped = true) {i : Nat} (hi : i < 32) (hla : la.toNat / 0x8000 = i) :
    s.writeProtected la = s.map[i].getLsbD 14 := by
  rw [State.writeProtected, if_neg (by rw [h]; decide), if_pos hm, mapEntry_eq hi hla]

theorem writeProtected_beyond (h : s.priv = false) (hm : s.mapped = false) (hla : 0x80000 ≤ la.toNat) :
    s.writeProtected la = false := by
  have hx : la.extractLsb' 19 5 ≠ 0 := (extract_ne_zero_iff _ _ _).2 (by omega)
  rw [State.writeProtected, if_neg (by rw [h]; decide), if_neg (by rw [hm]; decide), if_pos hx]

theorem writeProtected_unmapped (h : s.priv = false) (hm : s.mapped = false) {p : Nat} (hp : p < 16)
    (hla : la.toNat / 0x8000 = p) : s.writeProtected la = s.prot[p].getLsbD (la.toNat / 0x800 % 16) := by
  have hx : ¬la.extractLsb' 19 5 ≠ 0 := by rw [extract_ne_zero_iff]; omega
  have e : (la.extractLsb' 15 4).toNat = p := by rw [extract_toNat]; omega
  have e' : (la.extractLsb' 11 4).toNat = la.toNat / 0x800 % 16 := extract_toNat _ _ _
  rw [State.writeProtected, if_neg (by rw [h]; decide), if_neg (by rw [hm]; decide), if_neg hx]
  simp only [e, e']

/-! ## The checks of an access -/

theorem locate_none (h : s.translate la = none) (k : Access) (n : Nat) : s.locate k la n = .error (.mapFault false) := by
  rw [State.locate, h]

variable {pa : Addr} (ht : s.translate la = some pa) {n : Nat}
include ht

theorem locate_write_protected (hw : s.writeProtected la = true) : s.locate .write la n = .error .privilege := by
  simp only [State.locate, ht, hw, and_self, if_true]

theorem locate_write_absent (hw : s.writeProtected la = false) (hp : s.present pa n = false) :
    s.locate .write la n = .error (.nonpresent false) := by
  simp [State.locate, ht, hw, hp]

theorem locate_write_ok (hw : s.writeProtected la = false) (hp : s.present pa n = true) : s.locate .write la n = .ok pa := by
  simp [State.locate, ht, hw, hp]

theorem locate_absent {k : Access} (hk : k ≠ .write) (hp : s.present pa n = false) :
    s.locate k la n = .error (.nonpresent (decide (k = .fetch))) := by
  simp [State.locate, ht, hk, hp]

theorem locate_parity {k : Access} (hk : k ≠ .write) (hp : s.present pa n = true) (hb : s.parityAt pa n = true) :
    s.locate k la n = .error (.memoryParity (decide (k = .fetch))) := by
  simp [State.locate, ht, hk, hp, hb]

theorem locate_ok_of {k : Access} (hk : k ≠ .write) (hp : s.present pa n = true) (hb : s.parityAt pa n = false) :
    s.locate k la n = .ok pa := by
  simp [State.locate, ht, hk, hp, hb]

end

/-! ## The effective address -/

theorem indexValue_toNat (s : State) (w : Word) : (s.indexValue w).toNat = s.indexNumber (w.extractLsb' 21 2) := by
  unfold State.indexValue State.indexNumber
  split
  · rfl
  · exact congrArg (fun r => (s.reg r).toNat) (BitVec.eq_of_toNat_eq (by rw [BitVec.toNat_setWidth, BitVec.toNat_ofNat]))

/-- One level of addressing as numbers (20_memory.md R90, R93). -/
theorem addressLevel_ea (s : State) (w : Word) :
    (s.addressLevel w).ea.toNat = levelAddress s.ext (w.toNat % 2 ^ 20) (s.indexNumber (w.extractLsb' 21 2)) := by
  rw [← indexValue_toNat]
  unfold State.addressLevel levelAddress
  cases s.ext with
  | true =>
    simp only [if_true, BitVec.toNat_add, BitVec.toNat_setWidth, extract_toNat]
    omega
  | false =>
    simp only [Bool.false_eq_true, if_false, BitVec.toNat_add, BitVec.toNat_setWidth, extract_toNat]
    omega

theorem addressLevel_ef (s : State) (w : Word) :
    (s.addressLevel w).ef = levelFormat s.ext (w.toNat % 2 ^ 20) (s.indexNumber (w.extractLsb' 21 2)) := by
  rw [← indexValue_toNat]
  unfold State.addressLevel levelFormat
  cases s.ext with
  | true =>
    simp only [if_true, getLsbD_eq_decide, decide_eq_decide]
    omega
  | false =>
    simp only [Bool.false_eq_true, if_false, getLsbD_eq_decide, BitVec.toNat_add, decide_eq_decide]
    omega

theorem word_field (m : MemRef 20) : m.word.toNat % 2 ^ 20 = m.addr.toNat := by
  have := m.addr.isLt
  rw [MemRef.word, append_toNat]
  omega

theorem word_index (m : MemRef 20) : m.word.extractLsb' 21 2 = m.x := by
  have := m.addr.isLt
  have := m.x.isLt
  apply BitVec.eq_of_toNat_eq
  rw [extract_toNat, MemRef.word, append_toNat, append_toNat, append_toNat]
  cases m.ind <;> simp only [BitVec.ofBool_true, BitVec.ofBool_false, BitVec.toNat_ofNat] <;> omega

theorem word_ind (m : MemRef 20) : m.word.getLsbD 20 = m.ind := by
  have := m.addr.isLt
  rw [getLsbD_eq_decide, MemRef.word, append_toNat, append_toNat, append_toNat, BitVec.toNat_ofBool]
  cases m.ind <;> simp only [Bool.toNat_true, Bool.toNat_false, decide_eq_true_eq, decide_eq_false_iff_not] <;> omega

theorem indirectAddr_eq (a : Addr) : indirectAddr a = BitVec.ofNat 24 (a.toNat / 4 * 4 % 2 ^ 19) := by
  apply BitVec.eq_of_toNat_eq
  rw [indirectAddr, BitVec.toNat_setWidth, append_toNat, extract_toNat, BitVec.toNat_ofNat, BitVec.toNat_ofNat]
  omega

theorem effective_ref_direct (s : State) {m : MemRef 20} (h : m.ind = false) :
    s.effective m.word = .ok (s.addressLevel m.word) s := State.effective_direct ((word_ind m).trans h)

/-- One indirect level to a direct word. -/
theorem effective_indirect {s : State} {w w' : Word} (hw : w.getLsbD 20 = true) (hw' : w'.getLsbD 20 = false) (hs : s.Alone)
    (hr : s.ReadsWord (indirectAddr (s.addressLevel w).ea) w') :
    ∃ b, s.effective w = .ok (s.addressLevel w') (s.withStop b) := by
  obtain ⟨b, hl⟩ := hr.load s.stopHit hs
  have hl : s.load32 (indirectAddr (s.addressLevel w).ea) = .ok w' (s.withStop b) := hl
  refine ⟨b, ?_⟩
  unfold State.effective indirectLimit
  rw [State.addressLoop, if_pos hw, hl, Res.bind_ok, State.addressLoop, if_neg (by rw [hw']; decide)]
  rfl

/-! ## The operand -/

section
variable {e : Effective}

theorem operand_byte (h : e.ef = true) : e.operand = .byte e.ea := by rw [Effective.operand, if_pos h]

theorem operand_half (h : e.ef = false) (ha : e.ea.toNat % 2 = 1) : e.operand = .half (BitVec.ofNat 24 (e.ea.toNat / 2 * 2)) := by
  have h0 : e.ea.getLsbD 0 = true := by rw [getLsbD_eq_decide, decide_eq_true_eq, pow_zero, Nat.div_one]; exact ha
  rw [Effective.operand, if_neg (by rw [h]; decide), if_pos h0]
  exact congrArg Operand.half (and_clear_low e.ea (k := 1) rfl)

theorem operand_double (h : e.ef = false) (ha : e.ea.toNat % 4 = 2) :
    e.operand = .double (BitVec.ofNat 24 (e.ea.toNat / 8 * 8)) := by
  have h0 : ¬e.ea.getLsbD 0 = true := by rw [getLsbD_eq_decide, decide_eq_true_eq, pow_zero, Nat.div_one]; omega
  have h1 : e.ea.getLsbD 1 = true := by rw [getLsbD_eq_decide, decide_eq_true_eq]; omega
  rw [Effective.operand, if_neg (by rw [h]; decide), if_neg h0, if_pos h1, doubleAddr_eq]

theorem operand_word (h : e.ef = false) (ha : e.ea.toNat % 4 = 0) : e.operand = .word e.ea := by
  have h0 : ¬e.ea.getLsbD 0 = true := by rw [getLsbD_eq_decide, decide_eq_true_eq, pow_zero, Nat.div_one]; omega
  have h1 : ¬e.ea.getLsbD 1 = true := by rw [getLsbD_eq_decide, decide_eq_true_eq]; omega
  rw [Effective.operand, if_neg (by rw [h]; decide), if_neg h0, if_neg h1]

end

end Machine
open Machine

/-- Settles O5, by the equations of translation, protection and the checks. -/
theorem translationAndProtection : Obligations.TranslationAndProtection := by
  intro s la
  refine ⟨translate_unmapped, translate_beyond, fun h i hi e => translate_mapped h hi e, writeProtected_priv,
    fun h hm i hi e => writeProtected_mapped h hm hi e, writeProtected_beyond, fun h hm p hp e => writeProtected_unmapped h hm hp e,
    fun k n h => locate_none h k n, fun pa h => ?_⟩
  exact ⟨fun n => locate_write_protected h, fun n => locate_write_absent h, fun n => locate_write_ok h,
    fun n hp => ⟨locate_absent h (k := .read) (by decide) hp, locate_absent h (k := .fetch) (by decide) hp⟩,
    fun n hp hb => ⟨locate_parity h (k := .read) (by decide) hp hb, locate_parity h (k := .fetch) (by decide) hp hb⟩,
    fun n hp hb => ⟨locate_ok_of h (k := .read) (by decide) hp hb, locate_ok_of h (k := .fetch) (by decide) hp hb⟩⟩

/-- Settles O6, by one level of addressing as numbers. -/
theorem effectiveAddressAndOperand : Obligations.EffectiveAddressAndOperand := by
  refine ⟨fun e => ⟨operand_byte, operand_word, operand_half, operand_double⟩, fun s x f => ⟨?_, fun w hw hs hr => ?_⟩⟩
  · have field := word_field ⟨x, false, f⟩
    have index := word_index ⟨x, false, f⟩
    refine ⟨_, effective_ref_direct s rfl, ?_, ?_⟩
    · rw [addressLevel_ea, field, index]
    · rw [addressLevel_ef, field, index]
  · have field := word_field ⟨x, true, f⟩
    have index := word_index ⟨x, true, f⟩
    have at_ : indirectAddr (s.addressLevel (MemRef.word ⟨x, true, f⟩)).ea =
        BitVec.ofNat 24 (levelAddress s.ext f.toNat (s.indexNumber x) / 4 * 4 % 2 ^ 19) := by
      rw [indirectAddr_eq, addressLevel_ea, field, index]
    rw [← at_] at hr
    obtain ⟨b, he⟩ := effective_indirect (word_ind _) hw hs hr
    exact ⟨_, b, he, by unfold State.addressLevel; split <;> rfl, addressLevel_ea s w, addressLevel_ef s w⟩

end Sys2Proof
end

section
/-! PROOFS. Between instructions: the level that is acknowledged, the watchdog, the SYSTEM RESET key, and the fetch of an
instruction. -/

namespace Sys2Proof
namespace Machine

/-! ## The level to acknowledge -/

/-- The search from `l` on finds the lowest candidate, if no level up to it is active. -/
theorem eligibleFrom_eq_some (s : State) (k : Level) : ∀ (n l : Nat), l + n ≤ 128 →
    (s.eligibleFrom n l = some k ↔ l ≤ k.toNat ∧ k.toNat < l + n ∧ s.Candidate k ∧
      (∀ j, l ≤ j → j ≤ k.toNat → s.active.getLsbD j = false) ∧ ∀ j : Level, l ≤ j.toNat → j.toNat < k.toNat → ¬s.Candidate j)
  | 0, l, _ => by
    constructor
    · intro h; cases h
    · rintro ⟨h1, h2, -⟩; omega
  | n + 1, l, hn => by
    have ih := eligibleFrom_eq_some s k n (l + 1) (by omega)
    have hl : (BitVec.ofNat 7 l).toNat = l := by rw [BitVec.toNat_ofNat]; omega
    have candidate : (s.requesting.getLsbD l && s.levelEnabled (BitVec.ofNat 7 l) && isInterruptLevel (BitVec.ofNat 7 l)) = true ↔
        s.Candidate (BitVec.ofNat 7 l) := by
      simp only [Bool.and_eq_true, State.Candidate, hl, and_assoc]
    have here (j : Level) (hj : j.toNat = l) : j = BitVec.ofNat 7 l := BitVec.eq_of_toNat_eq (hj.trans hl.symm)
    unfold State.eligibleFrom
    split
    · rename_i ha
      constructor
      · intro h; cases h
      · rintro ⟨h1, -, -, h4, -⟩
        rw [h4 l le_rfl h1] at ha
        cases ha
    · rename_i ha
      have ha : s.active.getLsbD l = false := by simpa using ha
      split
      · rename_i hc
        rw [candidate] at hc
        constructor
        · rintro h
          cases h
          refine ⟨hl.ge, by omega, hc, fun j h1 h2 => ?_, fun j h1 h2 => by omega⟩
          rw [show j = l by omega]
          exact ha
        · rintro ⟨h1, h2, h3, h4, h5⟩
          by_contra hne
          have hlt : l < k.toNat := lt_of_le_of_ne h1 fun e => hne (by rw [here k e.symm])
          exact h5 (BitVec.ofNat 7 l) hl.ge (by omega) hc
      · rename_i hc
        rw [candidate] at hc
        rw [ih]
        constructor
        · rintro ⟨h1, h2, h3, h4, h5⟩
          refine ⟨by omega, by omega, h3, fun j g1 g2 => ?_, fun j g1 g2 => ?_⟩
          · rcases eq_or_lt_of_le g1 with e | e
            · rw [← e]; exact ha
            · exact h4 j e g2
          · rcases eq_or_lt_of_le g1 with e | e
            · rw [here j e.symm]; exact hc
            · exact h5 j e g2
        · rintro ⟨h1, h2, h3, h4, h5⟩
          have hne : k.toNat ≠ l := fun e => hc (here k e ▸ h3)
          exact ⟨by omega, by omega, h3, fun j g1 g2 => h4 j (by omega) g2, fun j g1 g2 => h5 j (by omega) g2⟩

theorem eligible_eq_some (s : State) (l : Level) :
    s.eligible = some l ↔
      s.Candidate l ∧ (∀ k, k ≤ l.toNat → s.active.getLsbD k = false) ∧ ∀ k : Level, k.toNat < l.toNat → ¬s.Candidate k := by
  have hl := l.isLt
  have search := eligibleFrom_eq_some s l 128 0 (by omega)
  unfold State.eligible
  split
  · rename_i h0
    constructor
    · intro h; cases h
    · rintro ⟨⟨h1, -⟩, -⟩
      rw [h0] at h1
      simp at h1
  · rw [search]
    constructor
    · rintro ⟨-, -, h3, h4, h5⟩
      exact ⟨h3, fun k => h4 k (Nat.zero_le k), fun k => h5 k (Nat.zero_le _)⟩
    · rintro ⟨h3, h4, h5⟩
      exact ⟨Nat.zero_le _, by omega, h3, fun k _ => h4 k, fun k _ => h5 k⟩

/-- With nothing waiting, the boundary of a CPU is its interrupt part. -/
theorem boundary_quiet {s : State} (hq : s.Quiet) (hr : s.cfg.role = .cpu) : boundary s = cpuInterrupts s := by
  obtain ⟨-, hp, ht, ha, hh, -, -⟩ := hq
  have hd : s.haltDue = false := by rw [State.haltDue, hh]; rfl
  unfold boundary cpuBoundary
  rw [hr, hp, ht, ha, hd]
  rfl

theorem endOfIpuDue_of_not_done {s : State} (h : s.ipuDonePending = false) : s.endOfIpuDue = false := by
  rw [State.endOfIpuDue, h]; rfl

/-! ## The status word -/

/-- The bits that mirror the state are none of the error bits. -/
theorem liveBits_errors (s : State) : s.liveBits &&& 0xFFFFFF00 = 0 := by
  unfold State.liveBits
  split <;> split <;> split <;> split <;> decide

theorem or_and {n : Nat} (a b c : BitVec n) : (a ||| b) &&& c = (a &&& c) ||| (b &&& c) := by
  ext i hi
  simp only [BitVec.getElem_and, BitVec.getElem_or, Bool.and_or_distrib_right]

theorem statusWord_errors (s : State) : s.statusWord &&& 0xFFFFFF00 = s.status &&& 0xFFFFFF00 := by
  rw [State.statusWord, or_and, liveBits_errors, BitVec.and_assoc]
  exact BitVec.or_zero

theorem status_set (s : State) (v : Word) : State.status { s with spad := s.spad.set 0x91 v } = v := Vector.getElem_set_self ..

/-- The mirror of a step changes the scratchpad's status word alone, and none of its error bits. -/
theorem mirrorStatus_frame (s old : State) : ∃ sp, s.mirrorStatus old = { s with spad := sp } ∧
    sp[0x91] &&& 0xFFFFFF00 = s.status &&& 0xFFFFFF00 ∧ ∀ (k : Nat) (h : k < 256), k ≠ 0x91 → sp[k] = s.spad[k] := by
  unfold State.mirrorStatus
  split
  · exact ⟨s.spad, rfl, rfl, fun _ _ _ => rfl⟩
  · refine ⟨_, rfl, ?_, fun k h hk => Vector.getElem_set_ne _ _ (Ne.symm hk)⟩
    rw [Vector.getElem_set_self]
    exact statusWord_errors s

end Machine
open Machine

/-- Settles O8: the search for the level, and the interrupt part of the boundary. -/
theorem acknowledgedLevel : Obligations.AcknowledgedLevel := by
  intro s
  refine ⟨eligible_eq_some s, fun hq hr => ?_⟩
  have hd := hq.2.2.2.2.2.2
  rw [boundary_quiet hq hr]
  unfold cpuInterrupts
  refine ⟨fun hn => ?_, fun hn hm hb => ?_, fun hn hm => ⟨fun l hl => ?_, fun hl => ?_⟩⟩
  · rw [if_pos hn, endOfIpuDue_of_not_done hd]; rfl
  · rw [if_neg (by rw [hn]; decide), if_pos ⟨hm, hb⟩]
  · rw [if_neg (by rw [hn]; decide), if_neg hm, hl]
  · rw [if_neg (by rw [hn]; decide), if_neg hm, hl]
    show (if s.endOfIpuDue then _ else _) = _
    rw [endOfIpuDue_of_not_done hd]
    rfl

/-- Settles O9: the count, then the watchdog; the address stops touch neither. -/
theorem watchdogCounts : Obligations.WatchdogCounts := by
  intro s was hm ha
  have stop (t : State) : t.checkStop.blockCount = t.blockCount ∧ t.checkStop.pendingTimeout = t.pendingTimeout := by
    unfold State.checkStop
    split <;> exact ⟨rfl, rfl⟩
  have count : s.countBlocked was =
      { s with blockCount := if s.blocked then (if was then s.blockCount + 1 else s.blockCount) else 0 } := if_pos ⟨ha, hm⟩
  have hc : (s.finishInstruction was).blockCount = (s.countBlocked was).blockCount := (stop _).1
  have hp : (s.finishInstruction was).pendingTimeout = (s.countBlocked was).watchdog.pendingTimeout := (stop _).2
  refine ⟨fun hb => ?_, fun hb => ?_, ?_⟩
  · rw [hc, count, hb]; rfl
  · rw [hc, count, hb]
    cases was <;> rfl
  · rw [hc, hp, count]
    simp only [State.watchdog, Bool.or_eq_true, Bool.and_eq_true, decide_eq_true_eq, hm, and_true]
    tauto

/-- Settles O27: the key acts at once, and the mirrored status word keeps its error bits clear. -/
theorem systemResetKey : Obligations.SystemResetKey := by
  intro s hi hr hh hl
  have key : hostEvent .systemResetKey { s with inputs := [] } = State.systemReset (State.keyPressed { s with inputs := [] }) := by
    show State.resetKey { s with inputs := [] } = _
    unfold State.resetKey halted unlocked
    simp only [hr, hl, Bool.false_eq_true, if_false]
    exact if_pos (.inl hh)
  have hstep : step s = .next ((State.systemReset (State.keyPressed { s with inputs := [] })).mirrorStatus s) := by
    unfold step
    rw [hi]
    simp only [key]
    rfl
  obtain ⟨sp, hsp, errors, others⟩ := mirrorStatus_frame (State.systemReset (State.keyPressed { s with inputs := [] })) s
  refine ⟨_, hstep, ?_⟩
  rw [hsp]
  refine ⟨fun r => Vector.getElem_replicate .., fun k h => Vector.getElem_replicate .., fun k h => Vector.getElem_replicate ..,
    rfl, rfl, rfl, rfl, rfl, rfl, rfl, rfl, rfl, rfl, rfl, rfl, rfl, rfl, rfl, rfl, ?_, ?_, fun hm => ?_, ?_, rfl, rfl, rfl, rfl, rfl⟩
  · show Config.resetRunState s.cfg = .halt
    unfold Config.resetRunState
    rw [hr]
  · show sp[0x91] &&& 0xFFFFFF00 = 0
    rw [errors]
    show ((s.spad.set s.cfg.spadMpl.toNat 0 s.cfg.spadMpl.isLt).set 0x91 (Config.resetStatus s.cfg))[0x91] &&& 0xFFFFFF00 = 0
    rw [Vector.getElem_set_self]
    unfold Config.resetStatus
    rw [hr]
    simp only
    split <;> decide
  · have hk : s.cfg.spadMpl.toNat ≠ 0x91 := fun e => hm (BitVec.eq_of_toNat_eq e)
    show (sp[s.cfg.spadMpl.toNat]'s.cfg.spadMpl.isLt).extractLsb' 0 24 = 0
    rw [others _ s.cfg.spadMpl.isLt hk]
    show (((s.spad.set s.cfg.spadMpl.toNat 0 s.cfg.spadMpl.isLt).set 0x91 _)[s.cfg.spadMpl.toNat]'s.cfg.spadMpl.isLt).extractLsb' 0 24 = 0
    rw [Vector.getElem_set_ne _ _ (Ne.symm hk), Vector.getElem_set_self]
    rfl
  · show Config.resetMode s.cfg = _
    unfold Config.resetMode
    rw [hr]

/-- Settles O7: the fetch by its cases, and what it hands to the instruction. -/
theorem stepRunsDecoded : Obligations.StepRunsDecoded := by
  intro s s1 hi hrun hb hrun1 after found past fails
  have hstep : step s = after (runFetched found.fetchNow) := by
    unfold step
    rw [hi]
    simp only [processorStep, hrun, cycle, hb, hrun1, if_true, instructionStep]
    rfl
  have hpc : found.pc = s1.pc := State.transact_pc s1
  have haddr : found.pcAddr = s1.pcAddr := by rw [State.pcAddr, hpc]; rfl
  have hpast (n : BitVec 18) : found.advance n = past found n := by
    simp only [State.advance, hpc]; rfl
  have hpast' (pa : Addr) (n : BitVec 18) : (found.noteFetch pa).advance n = past (found.noteFetch pa) n := by
    simp only [State.advance, State.noteFetch, hpc]; rfl
  have failed (t : Trap) (n : BitVec 18) (hf : found.fetchNow = .trap t n found) : fails t n := by
    have hd : (found.cfg.role = .cpu ∧ found.mode = .psw ∧ found.pswEnters t = none) ↔
        (s1.cfg.role = .cpu ∧ s1.mode = .psw ∧ s1.pswEnters t = none) := by
      show (s1.transact.cfg.role = .cpu ∧ s1.transact.mode = .psw ∧ s1.transact.pswEnters t = none) ↔ _
      rw [State.transact_frame s1]
      exact Iff.rfl
    refine ⟨fun h => ?_, fun h => ?_⟩
    · rw [hstep, hf, runFetched, State.fetchTrapped, if_neg (fun hx => h (hd.1 hx))]
    · rw [hstep, hf, runFetched, State.fetchTrapped, if_pos (hd.2 h), hpast]
  unfold State.fetchNow at hstep failed
  rw [haddr] at hstep failed
  refine ⟨fun t ht => failed t 1 (by rw [ht]), fun pa hpa => ?_⟩
  rw [hpa] at hstep failed
  simp only at hstep failed
  refine ⟨fun hh i hd => ?_, fun hh hd => ?_, fun hh h0 => ?_, fun hh h0 => ⟨fun t ht => ?_, fun ht => ⟨fun i hd => ?_, fun hd => ?_⟩⟩⟩
  · rw [hstep, if_pos hh]
    simp only [runFetched, hd, codeHalfwords, hpast']
  · rw [hstep, if_pos hh]
    simp only [runFetched, hd, codeHalfwords, hpast']
  · rw [hstep, if_neg (by rw [hh]; decide), if_pos (by rw [hpc]; exact h0)]
    simp only [runFetched, hpast']
  · refine failed t 2 ?_
    rw [if_neg (by rw [hh]; decide), if_neg (by rw [hpc, h0]; decide), ht]
  · rw [hstep, if_neg (by rw [hh]; decide), if_neg (by rw [hpc, h0]; decide), ht]
    simp only [runFetched, hd, codeHalfwords, hpast']
  · rw [hstep, if_neg (by rw [hh]; decide), if_neg (by rw [hpc, h0]; decide), ht]
    simp only [runFetched, hd, codeHalfwords, hpast']

end Sys2Proof
end

section
/-! PROOFS. Values and flags as the rules write them, by signed numbers; instructions that read their operand, and the
traps of its access. -/

namespace Sys2Proof.Machine

/-! ## Values and flags by signed numbers -/

theorem zeroExtend_eq_ofNat {n m : Nat} (v : BitVec n) : BitVec.zeroExtend m v = BitVec.ofNat m v.toNat :=
  BitVec.eq_of_toNat_eq (by rw [BitVec.toNat_setWidth, BitVec.toNat_ofNat])

theorem signExtend_eq_ofInt {n m : Nat} (v : BitVec n) : BitVec.signExtend m v = BitVec.ofInt m v.toInt := rfl

theorem add_eq_ofInt {n : Nat} (a b : BitVec n) : a + b = BitVec.ofInt n (a.toInt + b.toInt) := by
  rw [BitVec.ofInt_add, BitVec.ofInt_toInt, BitVec.ofInt_toInt]

theorem sub_eq_ofInt {n : Nat} (a b : BitVec n) : a - b = BitVec.ofInt n (a.toInt - b.toInt) := by
  rw [Int.sub_eq_add_neg, BitVec.ofInt_add, BitVec.ofInt_neg, BitVec.ofInt_toInt, BitVec.ofInt_toInt, BitVec.sub_eq_add_neg]

/-- A value is out of range where its representation is another value's. -/
theorem outOfRange_eq {n : Nat} (hn : 0 < n) (x : Int) : outOfRange n x = decide ((BitVec.ofInt n x).toInt ≠ x) := by
  rw [Bool.eq_iff_iff, outOfRange, Bool.or_eq_true, decide_eq_true_eq, decide_eq_true_eq, decide_eq_true_eq]
  have low := BitVec.le_toInt (BitVec.ofInt n x)
  have high := BitVec.toInt_lt (x := BitVec.ofInt n x)
  constructor
  · intro h e
    rw [e] at low high
    omega
  · intro h
    by_contra hr
    exact h (BitVec.toInt_ofInt_eq_self hn (by omega) (by omega))

theorem addOverflow_eq {n : Nat} (hn : 0 < n) (a b : BitVec n) : addOverflow a b = outOfRange n (a.toInt + b.toInt) := by
  rw [outOfRange_eq hn, addOverflow, add_eq_ofInt]

theorem subOverflow_eq {n : Nat} (hn : 0 < n) (a b : BitVec n) : subOverflow a b = outOfRange n (a.toInt - b.toInt) := by
  rw [outOfRange_eq hn, subOverflow, sub_eq_ofInt]

theorem negOverflow_eq_outOfRange {n : Nat} (hn : 0 < n) (a : BitVec n) : negOverflow a = outOfRange n (-a.toInt) := by
  rw [negOverflow, subOverflow_eq hn, show (0 : BitVec n).toInt = 0 from BitVec.toInt_zero, Int.zero_sub]

theorem ccCompare_eq {n : Nat} (a b : BitVec n) : ccCompare a b = signCc false (a.toInt - b.toInt) := by
  unfold ccCompare signCc
  rcases lt_trichotomy a.toInt b.toInt with h | h | h
  · rw [decide_eq_false (by omega), decide_eq_true h, decide_eq_false (by omega), if_neg (by omega : ¬0 < a.toInt - b.toInt),
      if_pos (by omega : a.toInt - b.toInt < 0)]
    rfl
  · rw [decide_eq_false (by omega), decide_eq_false (by omega), decide_eq_true h, if_neg (by omega : ¬0 < a.toInt - b.toInt),
      if_neg (by omega : ¬a.toInt - b.toInt < 0)]
    rfl
  · rw [decide_eq_true h, decide_eq_false (by omega), decide_eq_false (by omega), if_pos (by omega : 0 < a.toInt - b.toInt)]
    rfl

theorem ccZero_eq {n : Nat} (v : BitVec n) : ccZero v = if v = 0 then 1 else 0 := by
  unfold ccZero
  by_cases h : v = 0
  · rw [if_pos h, decide_eq_true h]; rfl
  · rw [if_neg h, decide_eq_false h]; rfl

/-- Without an exception the flags are the condition code alone. -/
theorem afterArith_false (s : State) (cc : BitVec 4) : s.afterArith false cc = s.setCc cc := by
  simp only [State.afterArith, Bool.false_and, Bool.or_false, Bool.false_eq_true, if_false]
  rfl

/-! ## Accesses that fail -/

section
variable {s : State} {a : Addr} {t : Trap} (b : Bool) (hs : s.Alone)
include hs

theorem load8_fault (h : s.locate .read a 1 = .error t) : (s.withStop b).load8 a = .trap t (s.withStop b) := by
  have e := State.withStop_transact b hs
  rw [State.load8_error (t := t) (by rw [e, State.withStop_locate]; exact h), e]

theorem load16_fault (h : s.locate .read a 2 = .error t) : (s.withStop b).load16 a = .trap t (s.withStop b) := by
  have e := State.withStop_transact b hs
  rw [State.load16_error (t := t) (by rw [e, State.withStop_locate]; exact h), e]

theorem load32_fault (h : s.locate .read a 4 = .error t) : (s.withStop b).load32 a = .trap t (s.withStop b) := by
  have e := State.withStop_transact b hs
  rw [State.load32_error (t := t) (by rw [e, State.withStop_locate]; exact h), e]

end

/-! ## Operands that are read -/

/-- The next state is `u`, but for the panel's operand stop match. -/
def Outcome.IsNext (o : Outcome) (u : State) : Prop := ∃ b, o = .next (u.withStop b)

/-- The trap is raised in `u`, but for the panel's operand stop match. -/
def Outcome.Raises (o : Outcome) (t : Trap) (u : State) : Prop := ∃ b, o = raise t (u.withStop b)

theorem Completes.of_isNext {i : Instr} {s u : State} {o : Outcome} (e : o = exec i s) (h : o.IsNext u) : Completes i s u := by
  obtain ⟨b, h⟩ := h
  exact ⟨b, e.symm.trans h⟩

section
variable {s : State} {a : Addr} (b : Bool) (hs : s.Alone)
include hs

theorem isNext_load8 {v : Byte} (h : s.ReadsByte a v) {f : Byte → State → State} (hf : ∀ c, f v (s.withStop c) = (f v s).withStop c) :
    Outcome.IsNext (((s.withStop b).load8 a).finish fun v u => .next (f v u)) (f v s) := by
  obtain ⟨c, e⟩ := h.load b hs
  exact ⟨c, by rw [e, Res.finish_ok, hf]⟩

theorem isNext_load16 {v : Half} (h : s.ReadsHalf a v) {f : Half → State → State} (hf : ∀ c, f v (s.withStop c) = (f v s).withStop c) :
    Outcome.IsNext (((s.withStop b).load16 a).finish fun v u => .next (f v u)) (f v s) := by
  obtain ⟨c, e⟩ := h.load b hs
  exact ⟨c, by rw [e, Res.finish_ok, hf]⟩

theorem isNext_load32 {v : Word} (h : s.ReadsWord a v) {f : Word → State → State} (hf : ∀ c, f v (s.withStop c) = (f v s).withStop c) :
    Outcome.IsNext (((s.withStop b).load32 a).finish fun v u => .next (f v u)) (f v s) := by
  obtain ⟨c, e⟩ := h.load b hs
  exact ⟨c, by rw [e, Res.finish_ok, hf]⟩

theorem isNext_load64 {hi lo : Word} (h : s.ReadsWord a hi) (h' : s.ReadsWord (a + 4) lo) {f : Double → State → State}
    (hf : ∀ c, f (hi ++ lo) (s.withStop c) = (f (hi ++ lo) s).withStop c) :
    Outcome.IsNext (((s.withStop b).load64 a).finish fun v u => .next (f v u)) (f (hi ++ lo) s) := by
  obtain ⟨c, e⟩ := h.load64 b hs h'
  exact ⟨c, by rw [e, Res.finish_ok, hf]⟩

end

section
variable {s : State} {i : Instr} {w : Word} {mem : Members} (hx : exec i s = withOperand w mem s)
include hx

/-- What holds of an instruction that reads its operand, from what each of its members answers. -/
theorem onRead_completes {fb : Byte → State} {fh : Half → State} {fw : Word → State} {fd : Word → Word → State}
    (hb : ∀ (_ : s.Alone) b a v, s.ReadsByte a v → Outcome.IsNext (mem.byte a (s.withStop b)) (fb v))
    (hh : ∀ (_ : s.Alone) b a v, s.ReadsHalf a v → Outcome.IsNext (mem.half a (s.withStop b)) (fh v))
    (hw : ∀ (_ : s.Alone) b a v, s.ReadsWord a v → Outcome.IsNext (mem.word a (s.withStop b)) (fw v))
    (hd : ∀ (_ : s.Alone) b a hi lo, s.ReadsWord a hi → s.ReadsWord (a + 4) lo →
      Outcome.IsNext (mem.double a (s.withStop b)) (fd hi lo)) :
    s.OnRead w (fun v => Completes i s (fb v)) (fun v => Completes i s (fh v)) (fun v => Completes i s (fw v))
      (fun hi lo => Completes i s (fd hi lo)) := fun hs =>
  State.onRead_of hx (fun b a v h e => .of_isNext e (hb hs b a v h)) (fun b a v h e => .of_isNext e (hh hs b a v h))
    (fun b a v h e => .of_isNext e (hw hs b a v h)) (fun b a hi lo h h' e => .of_isNext e (hd hs b a hi lo h h')) hs

/-- The traps of an operand's accesses, where each member begins with its access. -/
theorem onReadFault_of {odd : Word → State}
    (hb : ∀ a t, ∃ k, mem.byte a t = (t.load8 a).finish k) (hh : ∀ a t, ∃ k, mem.half a t = (t.load16 a).finish k)
    (hw : ∀ a t, ∃ k, mem.word a t = (t.load32 a).finish k) (hd : ∀ a t, ∃ k, mem.double a t = (t.load32 (a + 4)).finish k)
    (hodd : ∀ (_ : s.Alone) b a t lo, s.ReadsWord (a + 4) lo → s.locate .read a 4 = .error t →
      Outcome.Raises (mem.double a (s.withStop b)) t (odd lo)) : s.OnReadFault i w odd := by
  refine ⟨fun t s1 h => by rw [hx, withOperand, h, Res.finish_trap], fun hs e s1 he => ?_⟩
  obtain ⟨b, rfl⟩ := State.effective_withStop hs he
  rw [withOperand, he, Res.finish_ok] at hx
  split
  · rename_i a h
    obtain ⟨k, hk⟩ := hb a (s.withStop b)
    exact fun t ht => ⟨b, by rw [hx, h]; simp only [hk, load8_fault b hs ht, Res.finish_trap]⟩
  · rename_i a h
    obtain ⟨k, hk⟩ := hh a (s.withStop b)
    exact fun t ht => ⟨b, by rw [hx, h]; simp only [hk, load16_fault b hs ht, Res.finish_trap]⟩
  · rename_i a h
    obtain ⟨k, hk⟩ := hw a (s.withStop b)
    exact fun t ht => ⟨b, by rw [hx, h]; simp only [hk, load32_fault b hs ht, Res.finish_trap]⟩
  · rename_i a h
    obtain ⟨k, hk⟩ := hd a (s.withStop b)
    refine ⟨fun t ht => ⟨b, by rw [hx, h]; simp only [hk, load32_fault b hs ht, Res.finish_trap]⟩, fun t lo hlo ht => ?_⟩
    obtain ⟨c, hc⟩ := hodd hs b a t lo hlo ht
    exact ⟨c, by rw [hx, h]; exact hc⟩

end

/-- A doubleword read as a whole begins with its low-order word. -/
theorem load64_finish (s : State) (a : Addr) (k : Double → State → Outcome) :
    ∃ l, (s.load64 a).finish k = (s.load32 (a + 4)).finish l := by
  refine ⟨fun lo s1 => ((s1.load32 a).bind fun hi s2 => .ok (hi ++ lo) s2).finish k, ?_⟩
  unfold State.load64
  cases s.load32 (a + 4) <;> rfl

/-- Where its other word then fails, nothing is left but the trap. -/
theorem raises_load64 {s : State} {a : Addr} {t : Trap} {lo : Word} (b : Bool) (hs : s.Alone) (hlo : s.ReadsWord (a + 4) lo)
    (h : s.locate .read a 4 = .error t) (k : Double → State → Outcome) : Outcome.Raises (((s.withStop b).load64 a).finish k) t s := by
  obtain ⟨c, e⟩ := hlo.load b hs
  refine ⟨c, ?_⟩
  rw [State.load64, e, Res.bind_ok, load32_fault c hs h]
  rfl

/-- The same for an instruction all of whose next states are one function of its value. -/
theorem onValue_of {s : State} {i : Instr} {w : Word} {mem : Members} (hx : exec i s = withOperand w mem s)
    {f : Word → State} {g : Double → State}
    (hb : ∀ (_ : s.Alone) b a v, s.ReadsByte a v → Outcome.IsNext (mem.byte a (s.withStop b)) (f (BitVec.ofNat 32 v.toNat)))
    (hh : ∀ (_ : s.Alone) b a v, s.ReadsHalf a v → Outcome.IsNext (mem.half a (s.withStop b)) (f (BitVec.ofInt 32 v.toInt)))
    (hw : ∀ (_ : s.Alone) b a v, s.ReadsWord a v → Outcome.IsNext (mem.word a (s.withStop b)) (f v))
    (hd : ∀ (_ : s.Alone) b a hi lo, s.ReadsWord a hi → s.ReadsWord (a + 4) lo →
      Outcome.IsNext (mem.double a (s.withStop b)) (g (hi ++ lo))) : s.OnValue i w f g :=
  onRead_completes hx hb hh hw hd

end Sys2Proof.Machine
end

section
/-! PROOFS. The loads, masked loads and negative loads (40_load_store.md R201 to R212). -/

namespace Sys2Proof
namespace Machine

/-! ## What a load leaves -/

theorem setRegCc_eq (s : State) (r : Reg) (v : Word) : s.setRegCc r v = (s.setReg r v).setCc (signCc false v.toInt) := by
  rw [State.setRegCc, ccOf_eq_signCc]

/-- What a doubleword load leaves. -/
def State.loadedPair (s : State) (r : Reg) (v : Double) : State :=
  ((s.setReg (r &&& 6) (v.extractLsb' 32 32)).setReg (r ||| 1) (v.extractLsb' 0 32)).setCc (signCc false v.toInt)

theorem and_append {n m : Nat} (a b : BitVec n) (c d : BitVec m) : (a ++ c) &&& (b ++ d) = (a &&& b) ++ (c &&& d) :=
  BitVec.and_append

theorem append_high (a b : Word) : (a ++ b).extractLsb' 32 32 = a := extract_append_left a b 0 32 |>.trans (extract_all a)

/-- LD and LMD complete: the odd register, then the even one. -/
theorem isNext_loadDouble {s : State} (k : Word) (r : Reg) {a : Addr} {hi lo : Word} (b : Bool) (hs : s.Alone)
    (h : s.ReadsWord a hi) (h' : s.ReadsWord (a + 4) lo) :
    Outcome.IsNext (loadDoubleMasked k r a (s.withStop b)) (s.loadedPair r ((hi ++ lo) &&& (k ++ k))) := by
  obtain ⟨c, e⟩ := h'.load b hs
  have h2 : (s.setReg (oddReg r) (lo &&& k)).ReadsWord a hi := h
  obtain ⟨d, e2⟩ := State.ReadsWord.load (s := s.setReg (oddReg r) (lo &&& k)) c hs h2
  refine ⟨d, ?_⟩
  have e3 : ((s.withStop c).setReg (oddReg r) (lo &&& k)).load32 a = .ok hi ((s.setReg (oddReg r) (lo &&& k)).withStop d) := e2
  rw [loadDoubleMasked, e, Res.finish_ok, e3, Res.finish_ok, ccOf_eq_signCc, State.loadedPair, and_append, append_high,
    extract_append_right, ← State.setReg_pair]
  rfl

/-- Where the other word of LD or LMD fails, the odd register is loaded (R204). -/
theorem raises_loadDouble {s : State} (k : Word) (r : Reg) {a : Addr} {t : Trap} {lo : Word} (b : Bool) (hs : s.Alone)
    (hlo : s.ReadsWord (a + 4) lo) (h : s.locate .read a 4 = .error t) :
    Outcome.Raises (loadDoubleMasked k r a (s.withStop b)) t (s.setReg (r ||| 1) (lo &&& k)) := by
  obtain ⟨c, e⟩ := hlo.load b hs
  have h2 : (s.setReg (oddReg r) (lo &&& k)).locate .read a 4 = .error t := h
  refine ⟨c, ?_⟩
  have e2 : ((s.withStop c).setReg (oddReg r) (lo &&& k)).load32 a = .trap t ((s.setReg (oddReg r) (lo &&& k)).withStop c) :=
    load32_fault (s := s.setReg (oddReg r) (lo &&& k)) c hs h2
  rw [loadDoubleMasked, e, Res.finish_ok, e2, Res.finish_trap]
  rfl

theorem and_ones (v : Word) : v &&& 0xFFFFFFFF = v := BitVec.and_allOnes

theorem and_ones_pair (v : Double) : v &&& ((0xFFFFFFFF : Word) ++ (0xFFFFFFFF : Word)) = v := BitVec.and_allOnes

/-! ## The three families -/

section
variable {s : State} {i : Instr} {w : Word} (r : Reg)

theorem loads_complete (hx : exec i s = withOperand w (loadMembers r) s) :
    s.OnValue i w (fun v => (s.setReg r v).setCc (signCc false v.toInt)) (fun v => s.loadedPair r v) ∧
      s.OnReadFault i w fun lo => s.setReg (r ||| 1) lo := by
  constructor
  · refine onValue_of hx (fun hs b a v h => ?_) (fun hs b a v h => ?_) (fun hs b a v h => ?_) fun hs b a hi lo h h' => ?_
    · rw [← setRegCc_eq, ← zeroExtend_eq_ofNat]
      exact isNext_load8 b hs h (f := fun v u => u.setRegCc r (BitVec.zeroExtend 32 v)) fun _ => rfl
    · rw [← setRegCc_eq, ← signExtend_eq_ofInt]
      exact isNext_load16 b hs h (f := fun v u => u.setRegCc r (BitVec.signExtend 32 v)) fun _ => rfl
    · rw [← setRegCc_eq]
      exact isNext_load32 b hs h (f := fun v u => u.setRegCc r v) fun _ => rfl
    · have hd := isNext_loadDouble 0xFFFFFFFF r b hs h h'
      rw [and_ones_pair] at hd
      exact hd
  · refine onReadFault_of hx (fun _ _ => ⟨_, rfl⟩) (fun _ _ => ⟨_, rfl⟩) (fun _ _ => ⟨_, rfl⟩) (fun _ _ => ⟨_, rfl⟩)
      fun hs b a t lo hlo ht => ?_
    have hd := raises_loadDouble 0xFFFFFFFF r b hs hlo ht
    rw [and_ones] at hd
    exact hd

theorem zeroExtend_and_mask (v : Byte) (k : Word) :
    BitVec.zeroExtend 32 (v &&& k.extractLsb' 0 8) = BitVec.ofNat 32 v.toNat &&& k := by
  rw [← zeroExtend_eq_ofNat]
  ext j hj
  rw [BitVec.getElem_and, BitVec.getElem_setWidth, BitVec.getElem_setWidth, BitVec.getLsbD_and, BitVec.getLsbD_extractLsb',
    Nat.zero_add, BitVec.getLsbD_eq_getElem hj]
  by_cases h8 : j < 8
  · rw [decide_eq_true h8, Bool.true_and]
  · rw [BitVec.getLsbD_of_ge v j (by omega), Bool.false_and, Bool.false_and]

theorem masked_loads_complete (hx : exec i s = withOperand w (loadMaskedMembers r) s) :
    s.OnValue i w (fun v => (s.setReg r (v &&& s.reg 4)).setCc (signCc false (v &&& s.reg 4).toInt))
        (fun v => s.loadedPair r (v &&& (s.reg 4 ++ s.reg 4))) ∧
      s.OnReadFault i w fun lo => s.setReg (r ||| 1) (lo &&& s.reg 4) := by
  constructor
  · refine onValue_of hx (fun hs b a v h => ?_) (fun hs b a v h => ?_) (fun hs b a v h => ?_) fun hs b a hi lo h h' => ?_
    · rw [← setRegCc_eq, ← zeroExtend_and_mask]
      exact isNext_load8 b hs h (f := fun v u => u.setRegCc r (BitVec.zeroExtend 32 (v &&& (s.reg 4).extractLsb' 0 8))) fun _ => rfl
    · rw [← setRegCc_eq, ← signExtend_eq_ofInt]
      exact isNext_load16 b hs h (f := fun v u => u.setRegCc r (BitVec.signExtend 32 v &&& s.reg 4)) fun _ => rfl
    · rw [← setRegCc_eq]
      exact isNext_load32 b hs h (f := fun v u => u.setRegCc r (v &&& s.reg 4)) fun _ => rfl
    · exact isNext_loadDouble (s.reg 4) r b hs h h'
  · exact onReadFault_of hx (fun _ _ => ⟨_, rfl⟩) (fun _ _ => ⟨_, rfl⟩) (fun _ _ => ⟨_, rfl⟩) (fun _ _ => ⟨_, rfl⟩)
      fun hs b a t lo hlo ht => raises_loadDouble (s.reg 4) r b hs hlo ht

/-- A register negated, with its flags. -/
def State.negatedInto (s : State) (r : Reg) (v : Word) : State :=
  ((s.setReg r (BitVec.ofInt 32 (-v.toInt))).setCc (signCc false (BitVec.ofInt 32 (-v.toInt)).toInt)).afterArith
    (outOfRange 32 (-v.toInt)) (signCc (outOfRange 32 (-v.toInt)) (BitVec.ofInt 32 (-v.toInt)).toInt)

theorem negatedInto_eq (s : State) (r : Reg) (v : Word) :
    s.negatedInto r v = (s.setReg r (0 - v)).setArith (negOverflow v) (0 - v) := by
  rw [State.setArith_eq, negOverflow_eq_outOfRange (by decide), zero_sub_eq_ofInt_neg]
  rfl

/-- No negation of a byte or halfword overflows. -/
theorem negatedInto_small (s : State) (r : Reg) {v : Word} (h : v ≠ BitVec.intMin 32) :
    s.negatedInto r v = s.setRegCc r (0 - v) := by
  have ho : outOfRange 32 (-v.toInt) = false := by
    rw [← negOverflow_eq_outOfRange (by decide), negOverflow_eq (by decide)]
    exact decide_eq_false h
  rw [State.negatedInto, ho, afterArith_false, setRegCc_eq, zero_sub_eq_ofInt_neg]
  rfl

theorem zeroExtend_ne_intMin (v : Byte) : BitVec.zeroExtend 32 v ≠ BitVec.intMin 32 := by
  intro h
  have := congrArg BitVec.toNat h
  have := v.isLt
  rw [BitVec.toNat_setWidth] at *
  simp at *
  omega

theorem signExtend_ne_intMin (v : Half) : BitVec.signExtend 32 v ≠ BitVec.intMin 32 := by
  intro h
  have e := congrArg BitVec.toInt h
  rw [BitVec.toInt_signExtend_of_le (by decide)] at e
  have low := BitVec.le_toInt v
  rw [e, show (BitVec.intMin 32).toInt = -2147483648 by decide] at low
  omega

theorem negative_loads_complete (hx : exec i s = withOperand w (loadNegMembers r) s) :
    s.OnValue i w (fun v => s.negatedInto r v)
        (fun v => (s.loadedPair r (BitVec.ofInt 64 (-v.toInt))).afterArith (outOfRange 64 (-v.toInt))
          (signCc (outOfRange 64 (-v.toInt)) (BitVec.ofInt 64 (-v.toInt)).toInt)) ∧
      s.OnReadFault i w fun _ => s := by
  constructor
  · refine onValue_of hx (fun hs b a v h => ?_) (fun hs b a v h => ?_) (fun hs b a v h => ?_) fun hs b a hi lo h h' => ?_
    · rw [← zeroExtend_eq_ofNat, negatedInto_small s r (zeroExtend_ne_intMin v)]
      exact isNext_load8 b hs h (f := fun v u => u.setRegCc r (0 - BitVec.zeroExtend 32 v)) fun _ => rfl
    · rw [← signExtend_eq_ofInt, negatedInto_small s r (signExtend_ne_intMin v)]
      exact isNext_load16 b hs h (f := fun v u => u.setRegCc r (0 - BitVec.signExtend 32 v)) fun _ => rfl
    · rw [negatedInto_eq]
      exact isNext_load32 b hs h (f := fun v u => (u.setReg r (0 - v)).setArith (negOverflow v) (0 - v)) fun _ => rfl
    · have hd := isNext_load64 b hs h h' (f := fun v u => (u.setRegPair r (0 - v)).setArith (negOverflow v) (0 - v)) fun _ => rfl
      rw [State.setArith_eq, negOverflow_eq_outOfRange (by decide), zero_sub_eq_ofInt_neg] at hd
      exact hd
  · exact onReadFault_of hx (fun _ _ => ⟨_, rfl⟩) (fun _ _ => ⟨_, rfl⟩) (fun _ _ => ⟨_, rfl⟩) (fun _ _ => load64_finish _ _ _)
      fun hs b a t lo hlo ht => raises_load64 b hs hlo ht _

end

/-! ## LD with a bus agent's write between its accesses -/

theorem busWrite_setReg (s : State) (r : Reg) (v : Word) (c : Bool) (a : Addr) (x : Byte) :
    State.busWrite ((s.setReg r v).withStop c) a x = ((s.busWrite a x).setReg r v).withStop c := by
  show (if Config.presentAt s.cfg a.toNat = true then _ else _) = _
  unfold State.busWrite
  split <;> rfl

/-- What bus agents write does not depend on the registers and the stop match. -/
theorem busWrites_setReg (r : Reg) (v : Word) (c : Bool) : ∀ (l : List (Addr × Byte)) (s : State),
    State.busWrites ((s.setReg r v).withStop c) l = ((s.busWrites l).setReg r v).withStop c
  | [], _ => rfl
  | (a, x) :: l, s => by
    show State.busWrites (State.busWrite ((s.setReg r v).withStop c) a x) l = _
    rw [busWrite_setReg, busWrites_setReg r v c l]
    rfl

/-- A transaction before which bus agents write `l`. -/
theorem transact_cons {s : State} {l : List (Addr × Byte)} {rest : List (List (Addr × Byte))} (hl : s.memLock = false)
    (hb : s.bus = l :: rest) : s.transact = State.busWrites { s with bus := rest } l := by
  unfold State.transact
  rw [hl, hb]
  rfl

/-- A word read after what bus agents write before it. -/
theorem load32_after {s : State} {a : Addr} {v : Word} (h : s.transact.ReadsWord a v) :
    ∃ b, s.load32 a = .ok v (s.transact.withStop b) := by
  obtain ⟨pa, hp, rfl⟩ := h
  exact ⟨_, State.load32_eq hp⟩

theorem exec_ld_between {s : State} {r : Reg} {m : MemRef 17} (hl : s.memLock = false) {l1 l2 : List (Addr × Byte)}
    {rest : List (List (Addr × Byte))} (hb : s.bus = l1 :: l2 :: rest) {first second : State}
    (h1 : first = State.busWrites { s with bus := l2 :: rest } l1) (h2 : second = State.busWrites { first with bus := rest } l2)
    {e : Effective} {a : Addr} {hi lo : Word} (he : s.effective m.ofDouble.word = .ok e s) (ho : e.operand = .double a)
    (hlo : first.ReadsWord (a + 4) lo) (hhi : second.ReadsWord a hi) :
    ∃ b, exec (.ld r m) s = .next ((second.loadedPair r (hi ++ lo)).withStop b) := by
  have t1 : s.transact = first := (transact_cons hl hb).trans h1.symm
  have hl1 : first.memLock = false := by rw [← t1, State.transact_memLock]; exact hl
  have hb1 : first.bus = l2 :: rest := by
    obtain ⟨m, p, e⟩ := State.busWrites_frame l1 { s with bus := l2 :: rest }
    rw [h1, e]
  obtain ⟨c, e1⟩ := load32_after (s := s) (by rw [t1]; exact hlo)
  rw [t1] at e1
  have t2 : State.transact ((first.setReg (oddReg r) lo).withStop c) = (second.setReg (oddReg r) lo).withStop c := by
    rw [transact_cons (s := (first.setReg (oddReg r) lo).withStop c) (l := l2) (rest := rest) hl1 hb1, h2]
    exact busWrites_setReg (oddReg r) lo c l2 { first with bus := rest }
  have h2' : ((second.setReg (oddReg r) lo).withStop c).ReadsWord a hi := by
    obtain ⟨pa, hp, hv⟩ := hhi
    exact ⟨pa, by rw [State.withStop_locate]; exact hp, hv⟩
  obtain ⟨d, e2⟩ := load32_after (s := (first.setReg (oddReg r) lo).withStop c) (by rw [t2]; exact h2')
  rw [t2] at e2
  have e3 : ((first.withStop c).setReg (oddReg r) (lo &&& 0xFFFFFFFF)).load32 a = .ok hi ((second.setReg (oddReg r) lo).withStop d) := by
    rw [and_ones]; exact e2
  refine ⟨d, ?_⟩
  show withOperand m.ofDouble.word (loadMembers r) s = _
  rw [withOperand, he, Res.finish_ok, ho]
  show loadDoubleMasked 0xFFFFFFFF r a s = _
  rw [loadDoubleMasked, e1, Res.finish_ok, e3, Res.finish_ok, ccOf_eq_signCc, State.loadedPair, append_high, extract_append_right,
    ← State.setReg_pair, and_ones, and_ones]
  rfl

end Machine
open Machine

/-- Settles O28, family by family. -/
theorem loadsComplete : Obligations.LoadsComplete := by
  intro s r into pairOf pair loads masked negative
  refine ⟨fun m _ hl l1 l2 rest hb e a hi lo he ho hlo hhi => exec_ld_between hl hb rfl rfl he ho hlo hhi,
    ?_, ?_, ?_, ?_, ?_, ?_, ?_, ?_, ?_, ?_, ?_, ?_⟩
  · exact fun m => loads_complete r rfl
  · exact fun m => loads_complete r rfl
  · exact fun m => loads_complete r rfl
  · exact fun m => loads_complete r rfl
  · exact fun m => masked_loads_complete r rfl
  · exact fun m => masked_loads_complete r rfl
  · exact fun m => masked_loads_complete r rfl
  · exact fun m => masked_loads_complete r rfl
  · exact fun m => negative_loads_complete r rfl
  · exact fun m => negative_loads_complete r rfl
  · exact fun m => negative_loads_complete r rfl
  · exact fun m => negative_loads_complete r rfl

end Sys2Proof
end

section
/-! PROOFS. The compares, the logical instructions, and fixed-point arithmetic that leaves memory as it is
(45_compare.md, 46_logical.md, 49_fixed_point.md). -/

namespace Sys2Proof

/-! ## Encodings with unassigned bits -/

/-- A halfword of the register format decodes by its op code and augmenting code, whatever registers it names. -/
theorem decode_of_register_format {bits : Half} {f : Reg → Reg → Instr}
    (hf : ∀ sr d, decodeHalfFields ⟨bits.extractLsb' 10 6, d, sr, bits.extractLsb' 0 4⟩ = some (f sr d)) (h : Half)
    (e : h &&& 0xFC0F = bits) : decode (.half h) = some (f (h.extractLsb' 4 3) (h.extractLsb' 7 3)) := by
  rw [decode, HalfFields.ofHalf_of_masked e]
  exact hf _ _

/-- A word of op code 110010 decodes by its augmenting code, bits 9 to 12 being ignored (30_encoding.md R153). -/
theorem decode_of_immediate_format {bits : Word} {f : Reg → Half → Instr} (op : bits.extractLsb' 26 6 = 0b110010#6)
    (hf : ∀ g : WordFields, g.aug = bits.extractLsb' 16 3 → decodeGroupC8 g = some (f g.r g.imm)) (w : Word)
    (e : w &&& 0xFC070000 = bits) : decode (.word w) = some (f (w.extractLsb' 23 3) (w.extractLsb' 0 16)) := by
  have hop : w.extractLsb' 26 6 = 0b110010#6 := by
    rw [← op, ← e, BitVec.extractLsb'_and]
    exact BitVec.and_allOnes.symm
  have haug : (WordFields.ofWord w).aug = bits.extractLsb' 16 3 := by
    rw [← e, BitVec.extractLsb'_and]
    exact (extract_extract w (by decide)).trans BitVec.and_allOnes.symm
  have himm : (WordFields.ofWord w).imm = w.extractLsb' 0 16 := by
    show (w.extractLsb' 2 17).extractLsb' 0 14 ++ w.extractLsb' 0 2 = _
    rw [extract_extract w (by decide), ← extract_extract (j := 0) (m := 16) w (k := 2) (l := 14) (by decide),
      ← extract_extract (j := 0) (m := 16) w (k := 0) (l := 2) (by decide)]
    exact append_extract 2 (w.extractLsb' 0 16)
  have hd : decodeWordFields (WordFields.ofWord w) = decodeGroupC8 (WordFields.ofWord w) := by
    rw [decodeWordFields, show (WordFields.ofWord w).op = 0b110010#6 from hop]
    rfl
  rw [decode, hd, hf _ haug, himm]
  rfl

namespace Machine

/-! ## Compares -/

section
variable {s : State} {i : Instr} {w : Word} (r : Reg)

theorem compares_complete (hx : exec i s = withOperand w (compareMembers r) s) :
    s.OnValue i w (fun v => s.setCc (signCc false ((s.reg r).toInt - v.toInt)))
      (fun v => s.setCc (signCc false ((s.reg (r &&& 6) ++ s.reg (r ||| 1)).toInt - v.toInt))) := by
  refine onValue_of hx (fun hs b a v h => ?_) (fun hs b a v h => ?_) (fun hs b a v h => ?_) fun hs b a hi lo h h' => ?_
  · rw [← ccCompare_eq, ← zeroExtend_eq_ofNat]
    exact isNext_load8 b hs h (f := fun v u => u.setCc (ccCompare (u.reg r) (BitVec.zeroExtend 32 v))) fun _ => rfl
  · rw [← ccCompare_eq, ← signExtend_eq_ofInt]
    exact isNext_load16 b hs h (f := fun v u => u.setCc (ccCompare (u.reg r) (BitVec.signExtend 32 v))) fun _ => rfl
  · rw [← ccCompare_eq]
    exact isNext_load32 b hs h (f := fun v u => u.setCc (ccCompare (u.reg r) v)) fun _ => rfl
  · rw [← ccCompare_eq]
    exact isNext_load64 b hs h h' (f := fun v u => u.setCc (ccCompare (u.regPair r) v)) fun _ => rfl

theorem masked_compares_complete (hx : exec i s = withOperand w (compareMaskedMembers r) s) :
    s.OnValue i w (fun v => s.setCc (if (s.reg r ^^^ v) &&& s.reg 4 = 0 then 1 else 0))
      (fun v => s.setCc (if ((s.reg (r &&& 6) ++ s.reg (r ||| 1)) ^^^ v) &&& (s.reg 4 ++ s.reg 4) = 0 then 1 else 0)) := by
  refine onValue_of hx (fun hs b a v h => ?_) (fun hs b a v h => ?_) (fun hs b a v h => ?_) fun hs b a hi lo h h' => ?_
  · rw [← ccZero_eq, ← zeroExtend_eq_ofNat]
    exact isNext_load8 b hs h (f := fun v u => u.maskedCompare (u.reg r) (BitVec.zeroExtend 32 v)) fun _ => rfl
  · rw [← ccZero_eq, ← signExtend_eq_ofInt]
    exact isNext_load16 b hs h (f := fun v u => u.maskedCompare (u.reg r) (BitVec.signExtend 32 v)) fun _ => rfl
  · rw [← ccZero_eq]
    exact isNext_load32 b hs h (f := fun v u => u.maskedCompare (u.reg r) v) fun _ => rfl
  · rw [← ccZero_eq]
    exact isNext_load64 b hs h h' (f := fun v u => u.setCc (ccZero ((u.regPair r ^^^ v) &&& (u.reg 4 ++ u.reg 4)))) fun _ => rfl

end

/-! ## Logical functions -/

theorem LogicOp.apply_comm {n : Nat} (op : LogicOp) (a b : BitVec n) : op.apply a b = op.apply b a := by
  cases op
  · exact BitVec.and_comm a b
  · exact BitVec.or_comm a b
  · exact BitVec.xor_comm a b

theorem LogicOp.apply_append {n m : Nat} (op : LogicOp) (a b : BitVec n) (c d : BitVec m) :
    op.apply (a ++ c) (b ++ d) = op.apply a b ++ op.apply c d := by
  cases op
  · exact BitVec.and_append
  · exact BitVec.or_append
  · exact BitVec.xor_append

theorem zero_append {m n : Nat} (b : BitVec n) : 0#m ++ b = BitVec.ofNat (m + n) b.toNat := by
  apply BitVec.eq_of_toNat_eq
  have h : b.toNat < 2 ^ (m + n) := b.isLt.trans_le (Nat.pow_le_pow_right (by decide) (Nat.le_add_left n m))
  rw [append_toNat, BitVec.toNat_ofNat, BitVec.toNat_ofNat, Nat.zero_mod, Nat.zero_mul, Nat.zero_add, Nat.mod_eq_of_lt h]

section
variable {m n : Nat} (w : BitVec (m + n)) (b : BitVec n)

/-- The low bits of a word replaced by the function of them and `b`, the others unchanged (46_logical.md R341). -/
theorem low_and : w.extractLsb' n m ++ LogicOp.and.apply b (w.extractLsb' 0 n) =
    w &&& ((BitVec.allOnes m ++ 0#n) ||| BitVec.ofNat (m + n) b.toNat) := by
  conv => rhs; rw [← append_extract n w]
  rw [← zero_append, BitVec.or_append, BitVec.and_append, BitVec.or_zero, BitVec.zero_or, BitVec.and_allOnes, LogicOp.apply_comm]
  rfl

theorem low_or : w.extractLsb' n m ++ LogicOp.or.apply b (w.extractLsb' 0 n) = w ||| BitVec.ofNat (m + n) b.toNat := by
  conv => rhs; rw [← append_extract n w]
  rw [← zero_append, BitVec.or_append, BitVec.or_zero, LogicOp.apply_comm]
  rfl

theorem low_xor : w.extractLsb' n m ++ LogicOp.xor.apply b (w.extractLsb' 0 n) = w ^^^ BitVec.ofNat (m + n) b.toNat := by
  conv => rhs; rw [← append_extract n w]
  rw [← zero_append, BitVec.xor_append, BitVec.xor_zero, LogicOp.apply_comm]
  rfl

/-- The AND of a field as a number is that of the whole word with the field's operand. -/
theorem low_and_toNat : (LogicOp.and.apply b (w.extractLsb' 0 n)).toNat = (w &&& BitVec.ofNat (m + n) b.toNat).toNat := by
  conv => rhs; rw [← append_extract n w]
  rw [← zero_append, BitVec.and_append, BitVec.and_zero, append_toNat, BitVec.toNat_ofNat, Nat.zero_mod, Nat.zero_mul, Nat.zero_add,
    LogicOp.apply_comm]
  rfl

end

/-- The condition code of a field tested alone, as an unsigned value (R341, R342). -/
theorem fieldCc_and {n : Nat} (f : BitVec n) (whole : Word) : LogicOp.and.fieldCc f whole = signCc false f.toNat := by
  have hz : f = 0 ↔ f.toNat = 0 := by rw [BitVec.toNat_eq]; rfl
  unfold LogicOp.fieldCc signCc
  by_cases h : f.toNat = 0
  · rw [hz.2 h]
    simp
    rfl
  · have hp : (0 : Int) < f.toNat := by omega
    have hf : f ≠ 0 := fun e => h (hz.1 e)
    rw [if_pos hp, decide_eq_true hf, decide_eq_false hf]
    rfl

section
variable {s : State} {i : Instr} {w : Word} (op : LogicOp) (r : Reg)

/-- The doubleword form (R344): each word by itself is the whole by itself. -/
theorem isNext_logicDouble {a : Addr} {hi lo : Word} (b : Bool) (hs : s.Alone) (h : s.ReadsWord a hi)
    (h' : s.ReadsWord (a + 4) lo) :
    Outcome.IsNext (logicDouble op r a (s.withStop b)) (s.loadedPair r (op.apply (s.reg (r &&& 6) ++ s.reg (r ||| 1)) (hi ++ lo))) := by
  obtain ⟨c, e⟩ := h'.load b hs
  have h2 : (s.setReg (oddReg r) (op.apply lo (s.reg (oddReg r)))).ReadsWord a hi := h
  obtain ⟨d, e2⟩ := State.ReadsWord.load (s := s.setReg (oddReg r) (op.apply lo (s.reg (oddReg r)))) c hs h2
  have e3 : ((s.withStop c).setReg (oddReg r) (op.apply lo ((s.withStop c).reg (oddReg r)))).load32 a =
      .ok hi ((s.setReg (oddReg r) (op.apply lo (s.reg (oddReg r)))).withStop d) := e2
  have even : (State.withStop (s.setReg (oddReg r) (op.apply lo (s.reg (oddReg r)))) d).reg (evenReg r) = s.reg (evenReg r) :=
    State.setReg_reg_ne s _ _ _ (oddReg_ne_evenReg r).symm
  refine ⟨d, ?_⟩
  rw [logicDouble, e, Res.finish_ok]
  simp only
  rw [e3, Res.finish_ok]
  rw [even, ccOf_eq_signCc, LogicOp.apply_comm op (s.reg (r &&& 6) ++ s.reg (r ||| 1)), LogicOp.apply_append, State.loadedPair,
    append_high, extract_append_right, ← State.setReg_pair]
  rfl

/-- A logical family, given what its byte and halfword forms leave. -/
theorem logic_complete (hx : exec i s = withOperand w (logicMembers op r) s) {fb : Byte → State} {fh : Half → State}
    (hb : ∀ v, (s.setReg r ((s.reg r).extractLsb' 8 24 ++ op.apply v ((s.reg r).extractLsb' 0 8))).setCc
      (op.fieldCc (op.apply v ((s.reg r).extractLsb' 0 8)) ((s.reg r).extractLsb' 8 24 ++ op.apply v ((s.reg r).extractLsb' 0 8))) = fb v)
    (hh : ∀ v, (s.setReg r ((s.reg r).extractLsb' 16 16 ++ op.apply v ((s.reg r).extractLsb' 0 16))).setCc
      (op.fieldCc (op.apply v ((s.reg r).extractLsb' 0 16)) ((s.reg r).extractLsb' 16 16 ++ op.apply v ((s.reg r).extractLsb' 0 16))) = fh v) :
    s.OnRead w (fun v => Completes i s (fb v)) (fun v => Completes i s (fh v))
      (fun v => Completes i s ((s.setReg r (op.apply (s.reg r) v)).setCc (signCc false (op.apply (s.reg r) v).toInt)))
      (fun hi lo => Completes i s (s.loadedPair r (op.apply (s.reg (r &&& 6) ++ s.reg (r ||| 1)) (hi ++ lo)))) := by
  refine onRead_completes hx (fun hs b a v h => ?_) (fun hs b a v h => ?_) (fun hs b a v h => ?_) fun hs b a hi lo h h' => ?_
  · rw [← hb]
    exact isNext_load8 b hs h (f := fun v u => (u.setReg r ((u.reg r).extractLsb' 8 24 ++ op.apply v ((u.reg r).extractLsb' 0 8))).setCc
      (op.fieldCc (op.apply v ((u.reg r).extractLsb' 0 8)) ((u.reg r).extractLsb' 8 24 ++ op.apply v ((u.reg r).extractLsb' 0 8))))
      fun _ => rfl
  · rw [← hh]
    exact isNext_load16 b hs h (f := fun v u => (u.setReg r ((u.reg r).extractLsb' 16 16 ++ op.apply v ((u.reg r).extractLsb' 0 16))).setCc
      (op.fieldCc (op.apply v ((u.reg r).extractLsb' 0 16)) ((u.reg r).extractLsb' 16 16 ++ op.apply v ((u.reg r).extractLsb' 0 16))))
      fun _ => rfl
  · rw [op.apply_comm, ← ccOf_eq_signCc]
    exact isNext_load32 b hs h (f := fun v u => (u.setReg r (op.apply v (u.reg r))).setCc (ccOf false (op.apply v (u.reg r)))) fun _ => rfl
  · exact isNext_logicDouble op r b hs h h'

theorem logicReg_eq (sr d : Reg) (mask : Word) : logicReg op sr d mask s =
    .next ((s.setReg d (op.apply (s.reg sr) (s.reg d) &&& mask)).setCc (signCc false (op.apply (s.reg sr) (s.reg d) &&& mask).toInt)) := by
  rw [logicReg, ccOf_eq_signCc]

theorem logicReg_unmasked (sr d : Reg) : logicReg op sr d 0xFFFFFFFF s =
    .next ((s.setReg d (op.apply (s.reg sr) (s.reg d))).setCc (signCc false (op.apply (s.reg sr) (s.reg d)).toInt)) := by
  rw [logicReg_eq, and_ones]

end

/-! ## Sums and differences -/

/-- A register receives a value, with the flags of arithmetic. -/
def State.arithInto (s : State) (r : Reg) (x : Int) : State :=
  (s.setReg r (BitVec.ofInt 32 x)).afterArith (outOfRange 32 x) (signCc (outOfRange 32 x) (BitVec.ofInt 32 x).toInt)

/-- The same of a pair. -/
def State.arithIntoPair (s : State) (r : Reg) (x : Int) : State :=
  ((s.setReg (r &&& 6) ((BitVec.ofInt 64 x).extractLsb' 32 32)).setReg (r ||| 1) ((BitVec.ofInt 64 x).extractLsb' 0 32)).afterArith
    (outOfRange 64 x) (signCc (outOfRange 64 x) (BitVec.ofInt 64 x).toInt)

theorem addTo_eq (r : Reg) (b : Word) (s : State) : addTo r b s = s.arithInto r ((s.reg r).toInt + b.toInt) := by
  rw [addTo, State.setArith_eq, addOverflow_eq (by decide), add_eq_ofInt]
  rfl

theorem subFrom_eq (r : Reg) (b : Word) (s : State) : subFrom r b s = s.arithInto r ((s.reg r).toInt - b.toInt) := by
  rw [subFrom, State.setArith_eq, subOverflow_eq (by decide), sub_eq_ofInt]
  rfl

theorem addToPair_eq (r : Reg) (b : Double) (s : State) :
    addToPair r b s = s.arithIntoPair r ((s.reg (r &&& 6) ++ s.reg (r ||| 1)).toInt + b.toInt) := by
  rw [addToPair, State.setArith_eq, addOverflow_eq (by decide), add_eq_ofInt]
  rfl

theorem subFromPair_eq (r : Reg) (b : Double) (s : State) :
    subFromPair r b s = s.arithIntoPair r ((s.reg (r &&& 6) ++ s.reg (r ||| 1)).toInt - b.toInt) := by
  rw [subFromPair, State.setArith_eq, subOverflow_eq (by decide), sub_eq_ofInt]
  rfl

section
variable {s : State} {i : Instr} {w : Word} (r : Reg)

/-- A family whose byte, halfword and word forms are one operation on a word. -/
theorem isNext_wordMembers {k : Word → State → State} (hk : ∀ v c, k v (s.withStop c) = (k v s).withStop c) (hs : s.Alone) (b : Bool)
    (a : Addr) :
    (∀ v, s.ReadsByte a v → Outcome.IsNext ((wordMembers k).byte a (s.withStop b)) (k (BitVec.ofNat 32 v.toNat) s)) ∧
    (∀ v, s.ReadsHalf a v → Outcome.IsNext ((wordMembers k).half a (s.withStop b)) (k (BitVec.ofInt 32 v.toInt) s)) ∧
    (∀ v, s.ReadsWord a v → Outcome.IsNext ((wordMembers k).word a (s.withStop b)) (k v s)) := by
  refine ⟨fun v h => ?_, fun v h => ?_, fun v h => ?_⟩
  · rw [← zeroExtend_eq_ofNat]
    exact isNext_load8 b hs h (f := fun v u => k (BitVec.zeroExtend 32 v) u) (hk _)
  · rw [← signExtend_eq_ofInt]
    exact isNext_load16 b hs h (f := fun v u => k (BitVec.signExtend 32 v) u) (hk _)
  · exact isNext_load32 b hs h (f := fun v u => k v u) (hk _)

theorem adds_complete (hx : exec i s = withOperand w (addMembers r) s) :
    s.OnValue i w (fun v => s.arithInto r ((s.reg r).toInt + v.toInt))
      (fun v => s.arithIntoPair r ((s.reg (r &&& 6) ++ s.reg (r ||| 1)).toInt + v.toInt)) := by
  simp only [← addTo_eq, ← addToPair_eq]
  have family := isNext_wordMembers (s := s) (k := addTo r) fun _ _ => rfl
  exact onValue_of hx (fun hs b a v => (family hs b a).1 v) (fun hs b a v => (family hs b a).2.1 v)
    (fun hs b a v => (family hs b a).2.2 v)
    fun hs b a hi lo h h' => isNext_load64 b hs h h' (f := fun v u => addToPair r v u) fun _ => rfl

theorem subtracts_complete (hx : exec i s = withOperand w (subMembers r) s) :
    s.OnValue i w (fun v => s.arithInto r ((s.reg r).toInt - v.toInt))
      (fun v => s.arithIntoPair r ((s.reg (r &&& 6) ++ s.reg (r ||| 1)).toInt - v.toInt)) := by
  simp only [← subFrom_eq, ← subFromPair_eq]
  have family := isNext_wordMembers (s := s) (k := subFrom r) fun _ _ => rfl
  exact onValue_of hx (fun hs b a v => (family hs b a).1 v) (fun hs b a v => (family hs b a).2.1 v)
    (fun hs b a v => (family hs b a).2.2 v)
    fun hs b a hi lo h h' => isNext_load64 b hs h h' (f := fun v u => subFromPair r v u) fun _ => rfl

end

end Machine
open Machine

/-- Settles O38, family by family. -/
theorem comparesComplete : Obligations.ComparesComplete := by
  intro s r pair against under arith masked
  refine ⟨fun m => compares_complete r rfl, fun m => compares_complete r rfl, fun m => compares_complete r rfl,
    fun m => compares_complete r rfl, fun sr => ?_, fun v => ?_, fun m => masked_compares_complete r rfl,
    fun m => masked_compares_complete r rfl, fun m => masked_compares_complete r rfl, fun m => masked_compares_complete r rfl,
    fun sr => ?_⟩
  · show Host.Outcome.next (s.setCc (ccCompare (s.reg r) (s.reg sr))) = _
    rw [ccCompare_eq]
  · show Host.Outcome.next (s.setCc (ccCompare (s.reg r) (BitVec.signExtend 32 v))) = _
    rw [ccCompare_eq]
    rfl
  · show Host.Outcome.next (s.setCc (ccZero ((s.reg r ^^^ s.reg sr) &&& s.reg 4))) = _
    rw [ccZero_eq]

/-- Settles O39: a field replaced is a function of the whole word, a doubleword's words are taken one by one. -/
theorem logicalsComplete : Obligations.LogicalsComplete := by
  intro s r pair into intoPair ands ors eors
  have hand (i : Instr) (w : Word) (hx : exec i s = withOperand w (logicMembers .and r) s) : ands i w :=
    logic_complete .and r hx (fun v => by rw [low_and (m := 24) (s.reg r) v, fieldCc_and, low_and_toNat (m := 24)]; rfl)
      (fun v => by rw [low_and (m := 16) (s.reg r) v, fieldCc_and, low_and_toNat (m := 16)]; rfl)
  have hor (i : Instr) (w : Word) (hx : exec i s = withOperand w (logicMembers .or r) s) : ors i w :=
    logic_complete .or r hx (fun v => by rw [low_or (m := 24) (s.reg r) v, LogicOp.fieldCc, ccOf_eq_signCc])
      (fun v => by rw [low_or (m := 16) (s.reg r) v, LogicOp.fieldCc, ccOf_eq_signCc])
  have hxor (i : Instr) (w : Word) (hx : exec i s = withOperand w (logicMembers .xor r) s) : eors i w :=
    logic_complete .xor r hx (fun v => by rw [low_xor (m := 24) (s.reg r) v, LogicOp.fieldCc, ccOf_eq_signCc])
      (fun v => by rw [low_xor (m := 16) (s.reg r) v, LogicOp.fieldCc, ccOf_eq_signCc])
  refine ⟨fun m => ⟨hand _ _ rfl, hor _ _ rfl, hxor _ _ rfl⟩, fun m => ⟨hand _ _ rfl, hor _ _ rfl, hxor _ _ rfl⟩,
    fun m => ⟨hand _ _ rfl, hor _ _ rfl, hxor _ _ rfl⟩, fun m => ⟨hand _ _ rfl, hor _ _ rfl, hxor _ _ rfl⟩, fun sr => ?_⟩
  exact ⟨logicReg_unmasked .and sr r, logicReg_unmasked .or sr r, logicReg_eq .or sr r _, logicReg_unmasked .xor sr r,
    logicReg_eq .xor sr r _⟩

/-- Settles O43, family by family. -/
theorem addAndSubtractFromMemoryComplete : Obligations.AddAndSubtractFromMemoryComplete := by
  intro s r m h d sum pair sumPair adds subtracts
  exact ⟨adds_complete r rfl, adds_complete r rfl, adds_complete r rfl, adds_complete r rfl, subtracts_complete r rfl,
    subtracts_complete r rfl, subtracts_complete r rfl, subtracts_complete r rfl⟩

end Sys2Proof
end

section
/-! PROOFS. Fixed-point arithmetic in the registers, multiplication and division (49_fixed_point.md). -/

namespace Sys2Proof
namespace Machine

/-! ## The sign bit -/

theorem sign_bit {w : Word} : w.getLsbD 31 = decide (w.toInt < 0) := by
  rw [getLsbD_eq_decide, Bool.eq_iff_iff, decide_eq_true_eq, decide_eq_true_eq, BitVec.toInt_neg_iff]
  have := w.isLt
  omega

/-- A word preceded by its sign is the same number. -/
theorem sign_append_toInt {v w : Word} (h : v = if w.getLsbD 31 then 0xFFFFFFFF else 0) : (v ++ w).toInt = w.toInt := by
  have hw := BitVec.toInt_eq_toNat_cond w
  have := w.isLt
  rw [sign_bit] at h
  rw [BitVec.toInt_append, if_neg (by decide)]
  by_cases neg : w.toInt < 0
  · rw [decide_eq_true neg, if_pos rfl] at h
    rw [h, show (0xFFFFFFFF : Word).toInt = -1 from rfl]
    split at hw <;> omega
  · rw [decide_eq_false neg, if_neg Bool.false_ne_true] at h
    rw [h, show (0 : Word).toInt = 0 from rfl]
    split at hw <;> omega

/-! ## Register and immediate forms -/

section
variable (s : State) (d : Reg)

theorem execAdi_eq (v : Half) : execAdi d v s = .next (s.arithInto d ((s.reg d).toInt + v.toInt)) := by
  rw [execAdi, addTo_eq, BitVec.toInt_signExtend_of_le (by decide)]

theorem execSui_eq (v : Half) : execSui d v s = .next (s.arithInto d ((s.reg d).toInt - v.toInt)) := by
  rw [execSui, subFrom_eq, BitVec.toInt_signExtend_of_le (by decide)]

theorem maskedSum_eq (x : Int) (k : Word) : maskedSum d (outOfRange 32 x) (BitVec.ofInt 32 x &&& k) s =
    (s.setReg d (BitVec.ofInt 32 x &&& k)).afterArith (outOfRange 32 x) (signCc (outOfRange 32 x) (BitVec.ofInt 32 x &&& k).toInt) := by
  rw [maskedSum, State.setArith_eq]

theorem execAdrm_eq (sr : Reg) : execAdrm sr d s = .next (maskedSum d (outOfRange 32 ((s.reg d).toInt + (s.reg sr).toInt))
    (BitVec.ofInt 32 ((s.reg d).toInt + (s.reg sr).toInt) &&& s.reg 4) s) := by
  rw [execAdrm, addOverflow_eq (by decide), add_eq_ofInt]

theorem execSurm_eq (sr : Reg) : execSurm sr d s = .next (maskedSum d (outOfRange 32 ((s.reg d).toInt - (s.reg sr).toInt))
    (BitVec.ofInt 32 ((s.reg d).toInt - (s.reg sr).toInt) &&& s.reg 4) s) := by
  rw [execSurm, subOverflow_eq (by decide), sub_eq_ofInt]

theorem execRnd_eq : execRnd d s =
    .next (s.arithInto d ((s.reg d).toInt + if decide ((s.reg (d + 1)).toInt < 0) = true then 1 else 0)) := by
  rw [execRnd, addTo_eq, sign_bit]
  cases decide ((s.reg (d + 1)).toInt < 0) <;> rfl

theorem execEs_eq : execEs d s =
    .next ((s.setReg d (if decide ((s.reg (d + 1)).toInt < 0) = true then 0xFFFFFFFF else 0)).setCc
      (signCc false (s.reg (d + 1)).toInt)) := by
  unfold execEs
  dsimp only
  rw [ccOf_eq_signCc, sign_append_toInt rfl, sign_bit]

end

/-! ## Multiplication -/

/-- What a multiplication leaves (R440). -/
def State.multiplied (s : State) (r : Reg) (v : Word) : State :=
  ((s.setReg (r &&& 6) ((BitVec.ofInt 64 ((s.reg (r ||| 1)).toInt * v.toInt)).extractLsb' 32 32)).setReg (r ||| 1)
    ((BitVec.ofInt 64 ((s.reg (r ||| 1)).toInt * v.toInt)).extractLsb' 0 32)).setCc
    (signCc false ((s.reg (r ||| 1)).toInt * v.toInt))

/-- A product of words fits into a doubleword. -/
theorem product_toInt (a b : Word) : (BitVec.ofInt 64 (a.toInt * b.toInt)).toInt = a.toInt * b.toInt := by
  have ha := BitVec.le_toInt a
  have ha' := BitVec.toInt_lt (x := a)
  have hb := BitVec.le_toInt b
  have hb' := BitVec.toInt_lt (x := b)
  have h : |a.toInt * b.toInt| ≤ 2 ^ 31 * 2 ^ 31 := by
    rw [abs_mul]
    exact mul_le_mul (abs_le.2 ⟨by omega, by omega⟩) (abs_le.2 ⟨by omega, by omega⟩) (abs_nonneg _) (by decide)
  obtain ⟨low, high⟩ := abs_le.1 h
  exact BitVec.toInt_ofInt_eq_self (by decide) (by omega) (by omega)

theorem multiplyBy_eq (r : Reg) (v : Word) (s : State) : multiplyBy r v s = s.multiplied r v := by
  have h : s.product r v = BitVec.ofInt 64 ((s.reg (r ||| 1)).toInt * v.toInt) := by
    rw [BitVec.ofInt_mul]
    rfl
  rw [multiplyBy, ccOf_eq_signCc, h, product_toInt]
  rfl

/-! ## Division -/

/-- What a division leaves (R446). -/
def State.divided (s : State) (r : Reg) (v : Word) : State :=
  if v = 0 ∨ outOfRange 32 ((s.reg (r &&& 6) ++ s.reg (r ||| 1)).toInt.tdiv v.toInt) = true then
    s.afterArith true (signCc true (s.reg (r ||| 1)).toInt)
  else ((s.setReg (r &&& 6) (BitVec.ofInt 32 ((s.reg (r &&& 6) ++ s.reg (r ||| 1)).toInt.tmod v.toInt))).setReg (r ||| 1)
    (BitVec.ofInt 32 ((s.reg (r &&& 6) ++ s.reg (r ||| 1)).toInt.tdiv v.toInt))).setCc
      (signCc false ((s.reg (r &&& 6) ++ s.reg (r ||| 1)).toInt.tdiv v.toInt))

theorem divideException_iff (s : State) (r : Reg) (v : Word) :
    s.divideException r v = true ↔ v = 0 ∨ outOfRange 32 (s.quotient r v) = true := by
  rw [State.divideException, outOfRange, Bool.or_eq_true, Bool.or_eq_true, Bool.or_eq_true, decide_eq_true_eq, decide_eq_true_eq,
    decide_eq_true_eq, decide_eq_true_eq, decide_eq_true_eq, or_assoc]
  exact or_congr Iff.rfl (or_congr Iff.rfl Int.lt_iff_add_one_le)

theorem divideBy_withStop (r : Reg) (v : Word) (s : State) (c : Bool) : divideBy r v (s.withStop c) = (divideBy r v s).withStop c := by
  rw [divideBy, divideBy, apply_ite (State.withStop · c)]
  rfl

theorem divideBy_eq (r : Reg) (v : Word) (s : State) : divideBy r v s = s.divided r v := by
  have hq : (s.reg (r &&& 6) ++ s.reg (r ||| 1)).toInt.tdiv v.toInt = s.quotient r v := rfl
  rw [divideBy, State.divided, hq]
  by_cases h : v = 0 ∨ outOfRange 32 (s.quotient r v) = true
  · rw [if_pos h, if_pos ((divideException_iff s r v).2 h), State.setArith_eq]
    rfl
  · have fits : (BitVec.ofInt 32 (s.quotient r v)).toInt = s.quotient r v := by
      by_contra e
      exact h (.inr ((outOfRange_eq (by decide) _).trans (decide_eq_true e)))
    rw [if_neg h, if_neg (mt (divideException_iff s r v).1 h), ccOf_eq_signCc, fits, State.setReg_pair]
    rfl

/-- A family that is one operation on a word, and has no doubleword form. -/
theorem wordMembers_complete {s : State} {i : Instr} {w : Word} {k : Word → State → State}
    (hk : ∀ v c, k v (s.withStop c) = (k v s).withStop c) (hx : exec i s = withOperand w (wordMembers k) s) {e : Effective}
    {s1 : State} (hs : s.Alone) (h : s.effective w = .ok e s1) :
    match e.operand with
    | .byte a => ∀ v, s.ReadsByte a v → Completes i s (k (BitVec.ofNat 32 v.toNat) s)
    | .half a => ∀ v, s.ReadsHalf a v → Completes i s (k (BitVec.ofInt 32 v.toInt) s)
    | .word a => ∀ v, s.ReadsWord a v → Completes i s (k v s)
    | .double _ => exec i s = raise .undefined s1 := by
  rw [withOperand, h, Res.finish_ok] at hx
  obtain ⟨b, rfl⟩ := State.effective_withStop hs h
  cases ho : e.operand with
  | byte a => exact fun v hv => .of_isNext (by rw [hx, ho]) ((isNext_wordMembers hk hs b a).1 v hv)
  | half a => exact fun v hv => .of_isNext (by rw [hx, ho]) ((isNext_wordMembers hk hs b a).2.1 v hv)
  | word a => exact fun v hv => .of_isNext (by rw [hx, ho]) ((isNext_wordMembers hk hs b a).2.2 v hv)
  | double a =>
    show exec i s = _
    rw [hx, ho]
    rfl

end Machine
open Machine

/-- Settles O46: the values as signed numbers; the encodings by their fixed fields. -/
theorem registerArithmeticComplete : Obligations.RegisterArithmeticComplete := by
  intro s sr d v sum masked neg codes immediate
  refine ⟨⟨decode_of_register_format fun _ _ => rfl, decode_of_register_format fun _ _ => rfl,
    decode_of_register_format fun _ _ => rfl, decode_of_register_format fun _ _ => rfl,
    decode_of_register_format (f := fun _ r => .rnd r) fun _ _ => rfl,
    decode_of_register_format (f := fun _ r => .es r) fun _ _ => rfl,
    decode_of_immediate_format rfl fun g h => by rw [decodeGroupC8, h]; rfl,
    decode_of_immediate_format rfl fun g h => by rw [decodeGroupC8, h]; rfl⟩, ?_⟩
  refine ⟨congrArg _ (addTo_eq d _ s), ?_, execAdi_eq s d v, congrArg _ (subFrom_eq d _ s), ?_, execSui_eq s d v, execRnd_eq s d, execEs_eq s d⟩
  · exact (execAdrm_eq s d sr).trans (congrArg _ (maskedSum_eq s d _ _))
  · exact (execSurm_eq s d sr).trans (congrArg _ (maskedSum_eq s d _ _))

/-- Settles O45: the memory forms are the register operation on the operand as a word. -/
theorem multiplyAndDivideComplete : Obligations.MultiplyAndDivideComplete := by
  intro s r pair product divided reads
  have mul (i : Instr) (w : Word) (hx : exec i s = withOperand w (wordMembers (multiplyBy r)) s) : reads i w product := fun e s1 hs h => by
    have key := wordMembers_complete (fun _ _ => rfl) hx hs h
    simp only [multiplyBy_eq] at key
    exact key
  have div (i : Instr) (w : Word) (hx : exec i s = withOperand w (wordMembers (divideBy r)) s) : reads i w divided := fun e s1 hs h => by
    have key := wordMembers_complete (fun v c => divideBy_withStop r v s c) hx hs h
    simp only [divideBy_eq] at key
    exact key
  exact ⟨fun m => mul _ _ rfl, fun m => mul _ _ rfl, fun m => mul _ _ rfl, fun m => div _ _ rfl, fun m => div _ _ rfl,
    fun m => div _ _ rfl, fun sr => ⟨congrArg _ (multiplyBy_eq r _ s), congrArg _ (divideBy_eq r _ s)⟩,
    fun v => ⟨congrArg _ (multiplyBy_eq r _ s), congrArg _ (divideBy_eq r _ s)⟩⟩

end Sys2Proof
end

section
/-! PROOFS. Immediate and address loads, special transfers, branches and the floating-point instructions
(40_load_store.md R213 to R216, 41_register_transfer.md, 44_branch.md, 50_floating_point.md R480 to R493). -/

namespace Sys2Proof
namespace Machine

/-! ## Fields side by side as numbers -/

theorem high_two_or (v : Word) {x : Nat} (hx : x < 2 ^ 30) :
    (v &&& 0xC0000000) ||| BitVec.ofNat 32 x = BitVec.ofNat 32 (v.toNat / 2 ^ 30 * 2 ^ 30 + x) := by
  have hv : v = (v.extractLsb' 30 2 : BitVec 2) ++ (v.extractLsb' 0 30 : BitVec 30) := (append_extract 30 v).symm
  have hx' : BitVec.ofNat 32 x = 0#2 ++ BitVec.ofNat 30 x := by
    rw [zero_append, BitVec.toNat_ofNat, Nat.mod_eq_of_lt hx]
  rw [hx', hv, show (0xC0000000 : Word) = BitVec.allOnes 2 ++ 0#30 from rfl, BitVec.and_append, BitVec.or_append, BitVec.and_zero,
    BitVec.and_allOnes, BitVec.or_zero, BitVec.zero_or]
  apply BitVec.eq_of_toNat_eq
  simp only [append_toNat, extract_toNat, BitVec.toNat_ofNat]
  have := v.isLt
  omega

/-- An address's word, with the F bit of the addressing without extension above its 19 bits (R214, R216). -/
theorem format_address {m : Nat} (u : BitVec m) (f : Bool) {a : Addr} (h : a.toNat < 2 ^ 19) :
    (u ++ BitVec.ofBool f ++ a.extractLsb' 0 19).toNat = u.toNat * 2 ^ 20 + (f.toNat * 0x80000 + a.toNat) := by
  rw [append_toNat, append_toNat, extract_toNat, BitVec.toNat_ofBool]
  omega

theorem psd1Image_eq (s : State) : s.psd1Image = BitVec.ofNat 32 s.psd1Number := by
  have h : s.psd1Image.toNat = s.psd1Number := by
    simp only [State.psd1Image, append_toNat, BitVec.toNat_ofBool, State.psd1Number, show (0#5).toNat = 0 from rfl,
      show (0#1).toNat = 0 from rfl]
    omega
  rw [← h, BitVec.ofNat_toNat, BitVec.setWidth_eq]

/-- The bit of weight `2 ^ k` is set. -/
theorem and_two_pow_ne {n : Nat} (v : BitVec n) (k : Nat) (hk : k < n) : v &&& BitVec.ofNat n (2 ^ k) ≠ 0 ↔ v.getLsbD k = true := by
  have h : BitVec.ofNat n (2 ^ k) = BitVec.twoPow n k := by
    apply BitVec.eq_of_toNat_eq
    rw [BitVec.toNat_ofNat, BitVec.toNat_twoPow]
  rw [h, BitVec.and_twoPow]
  cases v.getLsbD k with
  | false => simp
  | true =>
    rw [if_pos rfl]
    refine iff_of_true (fun e => ?_) rfl
    have := congrArg BitVec.toNat e
    rw [BitVec.toNat_twoPow, Nat.mod_eq_of_lt (Nat.pow_lt_pow_right (by decide) hk)] at this
    exact absurd this (Nat.two_pow_pos k).ne'

/-! ## Addresses without extended addressing -/

theorem addressLevel_small {s : State} (w : Word) (h : s.ext = false) : (s.addressLevel w).ea.toNat < 2 ^ 19 := by
  simp only [State.addressLevel, h, Bool.false_eq_true, if_false, BitVec.toNat_setWidth, extract_toNat]
  omega

theorem load32_ext {s s' : State} {a : Addr} {v : Word} (h : s.load32 a = .ok v s') : s'.ext = s.ext := by
  unfold State.load32 at h
  dsimp only at h
  split at h
  · cases h
  · cases h
    exact State.transact_ext s

theorem addressLoop_small : ∀ (n : Nat) {w : Word} {s s1 : State} {e : Effective}, State.addressLoop n w s = .ok e s1 → s.ext = false →
    e.ea.toNat < 2 ^ 19
  | 0, _, _, _, _, h, _ => by cases h
  | n + 1, w, s, s1, e, h, hx => by
    unfold State.addressLoop at h
    split at h
    · cases hl : s.load32 (indirectAddr (s.addressLevel w).ea) with
      | ok w' s' =>
        rw [hl, Res.bind_ok] at h
        exact addressLoop_small n h ((load32_ext hl).trans hx)
      | trap t s' => rw [hl] at h; cases h
      | stuck f => rw [hl] at h; cases h
    · cases h
      exact addressLevel_small w hx

/-! ## Immediate and address loads -/

section
variable {s : State} {e : Effective}

theorem leaValue_ext (h : s.ext = true) : leaValue s e = (e.word &&& 0xC0000000) ||| BitVec.ofNat 32 e.ea.toNat := by
  have := e.ea.isLt
  rw [leaValue, if_pos h, high_two_or _ (by omega)]
  apply BitVec.eq_of_toNat_eq
  rw [append_toNat, append_toNat, extract_toNat, BitVec.toNat_ofNat, BitVec.toNat_ofNat]
  have := e.word.isLt
  omega

theorem leaValue_psd (h : s.ext = false) (hm : s.mode = .psd) (ha : e.ea.toNat < 2 ^ 19) :
    leaValue s e = (e.sum &&& 0xC0000000) ||| BitVec.ofNat 32 (e.ef.toNat * 0x80000 + e.ea.toNat) := by
  have := Bool.toNat_le e.ef
  rw [leaValue, if_neg (by rw [h]; decide), hm, high_two_or _ (by omega)]
  apply BitVec.eq_of_toNat_eq
  have key := format_address (e.sum.extractLsb' 30 2 ++ 0#10) e.ef ha
  rw [append_toNat (e.sum.extractLsb' 30 2), extract_toNat] at key
  refine key.trans ?_
  rw [BitVec.toNat_ofNat, BitVec.toNat_ofNat]
  have := e.sum.isLt
  omega

theorem leaValue_psw (h : s.ext = false) (hm : s.mode = .psw) : leaValue s e = e.sum := by
  rw [leaValue, if_neg (by rw [h]; decide), hm]

theorem laValue_ext (h : s.ext = true) : laValue s e = BitVec.ofNat 32 e.ea.toNat := by
  rw [laValue, if_pos h]
  exact zero_append e.ea

theorem laValue_plain (h : s.ext = false) (ha : e.ea.toNat < 2 ^ 19) :
    laValue s e = BitVec.ofNat 32 (e.ef.toNat * 0x80000 + e.ea.toNat) := by
  have := Bool.toNat_le e.ef
  rw [laValue, if_neg (by rw [h]; decide)]
  apply BitVec.eq_of_toNat_eq
  refine (format_address 0#12 e.ef ha).trans ?_
  rw [BitVec.toNat_ofNat, BitVec.toNat_ofNat]
  omega

theorem learValue_eq (f : Bool) (pa : Addr) : 0#7 ++ BitVec.ofBool f ++ pa = BitVec.ofNat 32 (f.toNat * 2 ^ 24 + pa.toNat) := by
  have := pa.isLt
  have := Bool.toNat_le f
  apply BitVec.eq_of_toNat_eq
  rw [append_toNat, append_toNat, BitVec.toNat_ofNat, BitVec.toNat_ofNat, BitVec.toNat_ofBool]
  omega

end

/-! ## Branches -/

/-- BCT's conditions, by the condition code's bits (R293). -/
def conditionHolds (cc : BitVec 4) (c : BitVec 3) : Bool :=
  if c.toNat = 0 then true
  else if c.toNat < 5 then cc.getLsbD (4 - c.toNat)
  else if c = 5 then cc.getLsbD 2 || cc.getLsbD 0
  else if c = 6 then cc.getLsbD 1 || cc.getLsbD 0
  else decide (cc ≠ 0)

theorem conditionTrue_eq : ∀ (c : BitVec 3) (cc : BitVec 4), conditionTrue c cc = conditionHolds cc c := by decide

theorem conditionFalse_eq : ∀ (c : BitVec 3) (cc : BitVec 4), conditionFalse c cc = !conditionHolds cc c := by decide

theorem branch_eq (s : State) (ind : Bool) (e : Effective) : s.branch ind e = { s with
    pc := BitVec.ofNat 18 (e.ea.toNat / 2), cc := if ind then BitVec.ofNat 4 (e.word.toNat / 2 ^ 27) else s.cc } := by
  rw [State.branch, extract_eq_ofNat, extract_eq_ofNat]
  rfl

section
variable {s s1 : State} {i : Instr} {m : MemRef 20} {e : Effective} {c : Bool}

theorem branchIf_taken {t : State} (hx : exec i s = branchIf c m t) (hc : c = true) (hs : t.Alone) (h : t.effective m.word = .ok e s1) :
    Completes i s { t with
      pc := BitVec.ofNat 18 (e.ea.toNat / 2), cc := if m.ind then BitVec.ofNat 4 (e.word.toNat / 2 ^ 27) else t.cc } := by
  obtain ⟨b, rfl⟩ := State.effective_withStop hs h
  exact ⟨b, by rw [hx, hc, branchIf, if_pos rfl, takeBranch, h, Res.finish_ok, branch_eq]; rfl⟩

theorem branchIf_untaken {t : State} (hc : c = false) : branchIf c m t = .next t := by
  rw [branchIf, hc, if_neg Bool.false_ne_true]

/-- BIB to BID: the sum is zero, or its word is written and the branch taken (R297). -/
theorem branchIncrement_complete {k : Word} {n : Nat} {r : Reg} {ind : Bool} {a : BitVec 20} (hk : k = BitVec.ofNat 32 n)
    (hx : exec i s = branchIncrement k r ind a s) :
    (((s.reg r).toNat + n) % 2 ^ 32 = 0 →
      exec i s = .next { s.setReg r (BitVec.ofNat 32 ((s.reg r).toNat + n)) with noHalt := true }) ∧
    (((s.reg r).toNat + n) % 2 ^ 32 ≠ 0 → ∀ e s1, s.Alone →
      State.effective { s.setReg r (BitVec.ofNat 32 ((s.reg r).toNat + n)) with noHalt := true } (MemRef.word ⟨0, ind, a⟩) = .ok e s1 →
      Completes i s { s.setReg r (BitVec.ofNat 32 ((s.reg r).toNat + n)) with
        noHalt := true
        pc := BitVec.ofNat 18 (e.ea.toNat / 2)
        cc := if ind then BitVec.ofNat 4 (e.word.toNat / 2 ^ 27) else s.cc }) := by
  have sum : s.reg r + k = BitVec.ofNat 32 ((s.reg r).toNat + n) := by
    rw [hk, BitVec.ofNat_add, BitVec.ofNat_toNat, BitVec.setWidth_eq]
  have zero : s.reg r + k = 0 ↔ ((s.reg r).toNat + n) % 2 ^ 32 = 0 := by
    rw [sum, BitVec.toNat_eq, BitVec.toNat_ofNat]
    rfl
  unfold branchIncrement at hx
  constructor
  · intro h
    rw [hx, branchIf_untaken (decide_eq_false (not_not.2 (zero.2 h))), sum]
  · intro h e s1 hs he
    rw [← sum] at he ⊢
    exact branchIf_taken hx (decide_eq_true (mt zero.1 h)) hs he

end

/-! ## Floating-point instructions -/

/-- The condition code of an answer, by its weights (R483). -/
def fpCode (e : FpExc) (x : FpSign) : BitVec 4 :=
  if e = .none then (if x = .zero then 1 else BitVec.ofNat 4 (if x = .positive then 4 else if x = .negative then 2 else 0))
  else BitVec.ofNat 4 (8 + (if x = .positive then 4 else if x = .negative then 2 else 0) + if e = .overflow then 1 else 0)

theorem fpCc_eq {n : Nat} (x : FpResult n) : fpCc x = fpCode x.exc x.sign := by
  unfold fpCc
  cases x.exc <;> cases x.sign <;> rfl

theorem setFp_eq {n : Nat} (s : State) (x : FpResult n) : s.setFp x = s.afterArith (decide (x.exc ≠ .none)) (fpCode x.exc x.sign) := by
  rw [State.setFp, fpCc_eq]
  rfl

section
variable {s s1 : State} {i : Instr} {w : Word} {op : FpOp} {r : Reg} {e : Effective}

/-- The three uses of the C bits of an effective address (R480). -/
theorem fpExec_complete (hx : exec i s = fpExec op r w s) (hs : s.Alone) (h : s.effective w = .ok e s1) :
    (e.ea.toNat % 4 = 0 → ∀ v, s.ReadsWord e.ea v →
      Completes i s ((s.setReg r (fpArith 32 op (s.reg r) v).result).setFp (fpArith 32 op (s.reg r) v))) ∧
    (e.ea.toNat % 4 = 2 → ∀ hi lo, s.ReadsWord (doubleAddr e.ea) hi → s.ReadsWord (doubleAddr e.ea + 4) lo →
      Completes i s ((s.setRegPair r (fpArith 64 op (s.regPair r) (hi ++ lo)).result).setFp
        (fpArith 64 op (s.regPair r) (hi ++ lo)))) ∧
    (e.ea.toNat % 2 = 1 → exec i s = raise .undefined s1) := by
  have bits : (e.ea.extractLsb' 0 2).toNat = e.ea.toNat % 4 := by
    rw [extract_toNat]
    omega
  have is (v : BitVec 2) : e.ea.extractLsb' 0 2 = v ↔ e.ea.toNat % 4 = v.toNat := by rw [← bits, BitVec.toNat_eq]
  obtain ⟨b, rfl⟩ := State.effective_withStop hs h
  rw [fpExec, h, Res.finish_ok] at hx
  refine ⟨fun hc v hv => ?_, fun hc hi lo h1 h2 => ?_, fun hc => ?_⟩
  · have aligned : wordAddr e.ea = e.ea := by
      rw [wordAddr_eq]
      apply BitVec.eq_of_toNat_eq
      rw [BitVec.toNat_ofNat]
      have := e.ea.isLt
      omega
    rw [if_pos ((is 0b00#2).2 hc), aligned] at hx
    exact .of_isNext hx.symm (isNext_load32 b hs hv
      (f := fun v u => (u.setReg r (fpArith 32 op (u.reg r) v).result).setFp (fpArith 32 op (u.reg r) v)) fun _ => rfl)
  · rw [if_neg (fun e0 => by have := (is _).1 e0; rw [hc] at this; cases this), if_pos ((is 0b10#2).2 hc)] at hx
    exact .of_isNext hx.symm (isNext_load64 b hs h1 h2
      (f := fun v u => (u.setRegPair r (fpArith 64 op (u.regPair r) v).result).setFp (fpArith 64 op (u.regPair r) v)) fun _ => rfl)
  · have odd (v : BitVec 2) (hv : v.toNat % 2 = 0) : e.ea.extractLsb' 0 2 ≠ v := fun e0 => by
      have := (is _).1 e0
      omega
    rw [hx, if_neg (odd _ rfl), if_neg (odd _ rfl)]

end

end Machine
open Machine

/-- Settles O29: the fields of the result side by side, as numbers. -/
theorem immediateAndAddressLoadsComplete : Obligations.ImmediateAndAddressLoadsComplete := by
  intro s r m
  refine ⟨fun v => ?_, fun e s1 hs h => ?_, fun e s1 hs h hm => ?_⟩
  · show Host.Outcome.next (s.setRegCc r (BitVec.signExtend 32 v)) = _
    rw [setRegCc_eq, BitVec.toInt_signExtend_of_le (by decide)]
    rfl
  · have go {u : Word} (hu : leaValue s e = u) : Completes (.lea r m) s (s.setReg r u) := by
      obtain ⟨b, rfl⟩ := State.effective_withStop hs h
      refine ⟨b, ?_⟩
      show execLea r m s = _
      rw [execLea, h, Res.finish_ok, ← hu]
      rfl
    exact ⟨fun hx => go (leaValue_ext hx), fun hx hm => go (leaValue_psd hx hm (addressLoop_small _ h hx)),
      fun hx hm => go (leaValue_psw hx hm)⟩
  · have go {u : Word} (hu : laValue s e = u) : Completes (.la r m) s (s.setReg r u) := by
      obtain ⟨b, rfl⟩ := State.effective_withStop hs h
      refine ⟨b, ?_⟩
      show execLa r m s = _
      rw [execLa, psdOnly_psd hm, h, Res.finish_ok, ← hu]
      rfl
    refine ⟨fun hx => go (laValue_ext hx), fun hx => go (laValue_plain hx (addressLoop_small _ h hx)), fun hp pa ht => ?_⟩
    obtain ⟨b, rfl⟩ := State.effective_withStop hs h
    have ht' : (s.withStop b).translate e.ea = some pa := ht
    refine ⟨b, ?_⟩
    show execLear r m s = _
    rw [execLear, psdOnly_psd hm, privileged_yes hp, h, Res.finish_ok, ht', ← learValue_eq]
    rfl

/-- Settles O33, instruction by instruction. -/
theorem specialTransfersComplete : Obligations.SpecialTransfersComplete := by
  intro s sr d p
  have cell (v : Word) {k : Nat} (e : v.toNat / 0x10000 % 256 = k) : (v.extractLsb' 16 8).toNat = k := by
    rw [extract_toNat]
    exact e
  refine ⟨fun hp k hk e => ?_, fun hp k hk e => ?_, fun hp => ?_, ?_, ?_, ?_⟩
  · obtain rfl := cell _ e
    exact privileged_yes hp
  · obtain rfl := cell _ e
    exact privileged_yes hp
  · refine (privileged_yes hp).trans ?_
    rw [extract_eq_ofNat, Nat.pow_zero, Nat.div_one]
  · show Host.Outcome.next (s.setReg d (BitVec.zeroExtend 32 _)) = _
    rw [zeroExtend_eq_ofNat]
  · show Host.Outcome.next { s with cc := (s.reg sr).extractLsb' 27 4, pc := (s.reg sr).extractLsb' 1 18 } = _
    rw [extract_eq_ofNat, extract_eq_ofNat]
    rfl
  · have h : s.csw ++ 0#16 = BitVec.ofNat 32 (s.csw.toNat * 0x10000) := by
      apply BitVec.eq_of_toNat_eq
      have := s.csw.isLt
      rw [append_toNat, BitVec.toNat_ofNat, BitVec.toNat_ofNat]
      omega
    show Host.Outcome.next ((s.setReg d (s.csw ++ 0#16)).setCc (ccOf false (s.csw ++ 0#16))) = _
    rw [ccOf_eq_signCc, h]

/-- Settles O37: every branch is a branch on a condition; a branch not taken walks no chain. -/
theorem branchesComplete : Obligations.BranchesComplete := by
  intro s m goes holds taken
  have go (i : Instr) (c : Bool) (hx : exec i s = branchIf c m s) (hc : c = true) : taken i := fun e s1 hs h =>
    branchIf_taken hx hc hs h
  have bit : s.reg 4 &&& BitVec.ofNat 32 (2 ^ (15 - s.cc.toNat)) ≠ 0 ↔ s.functionBit = true :=
    and_two_pow_ne _ _ (by omega)
  refine ⟨go _ true rfl rfl, fun c h => go _ _ rfl ((conditionTrue_eq c s.cc).trans h),
    fun c h => branchIf_untaken ((conditionTrue_eq c s.cc).trans h),
    fun c h => go _ _ rfl ((conditionFalse_eq c s.cc).trans (congrArg not h)),
    fun c h => branchIf_untaken ((conditionFalse_eq c s.cc).trans (congrArg not h)), fun h => go _ _ rfl (bit.1 h),
    fun h => branchIf_untaken (Bool.eq_false_iff.2 (mt bit.2 (not_not.2 h))), fun e s1 hs h => ?_, fun r ind a => ?_⟩
  · obtain ⟨b, rfl⟩ := State.effective_withStop hs h
    refine ⟨b, ?_⟩
    show execBl m s = _
    rw [execBl, h, Res.finish_ok, State.link, psd1Image_eq, branch_eq]
    rfl
  · exact ⟨branchIncrement_complete (n := 1) rfl rfl, branchIncrement_complete (n := 2) rfl rfl,
      branchIncrement_complete (n := 4) rfl rfl, branchIncrement_complete (n := 8) rfl rfl⟩

/-- Settles O47: each instruction is `fpExec` of its operation. -/
theorem floatingPointComplete : Obligations.FloatingPointComplete := by
  intro s r m d sign code computes
  have go (i : Instr) (op : FpOp) (w : Word) (hx : exec i s = fpExec op r w s) : computes i op w := fun e s1 hs h => by
    obtain ⟨word, double, odd⟩ := fpExec_complete hx hs h
    refine ⟨fun hc v hv => ?_, fun hc hi lo h1 h2 => ?_, odd⟩
    · have key := word hc v hv
      rw [setFp_eq] at key
      exact key
    · rw [BitVec.ofNat_add] at h2
      have key := double hc hi lo (by rw [doubleAddr_eq]; exact h1) (by rw [doubleAddr_eq]; exact h2)
      rw [setFp_eq] at key
      exact key
  exact ⟨go _ _ _ rfl, go _ _ _ rfl, go _ _ _ rfl, go _ _ _ rfl, go _ _ _ rfl, go _ _ _ rfl, go _ _ _ rfl, go _ _ _ rfl⟩

end Sys2Proof
end

section
/-! PROOFS. The control instructions, the level instructions and the device instructions (51_control.md,
52_interrupt.md section 2, 53_input_output.md section 2). -/

namespace Sys2Proof
namespace Machine

/-! ## Control -/

/-- RDSTS's condition code, by its weights (R525). -/
theorem statusCc_eq (s : State) : statusCc s =
    (if s.mode = .psd then 4 else 0) + (if s.blocked then 2 else 0) + (if s.statusWord.toNat / 256 = 0 then 1 else 0) := by
  have clear : s.statusWord.extractLsb' 8 24 = 0 ↔ s.statusWord.toNat / 256 = 0 := by
    rw [BitVec.toNat_eq, extract_toNat]
    have := s.statusWord.isLt
    show s.statusWord.toNat / 2 ^ 8 % 2 ^ 24 = 0 ↔ _
    omega
  have weights (a b c : Bool) : ccBits false a b c = (if a then 4 else 0) + (if b then 2 else 0) + (if c then 1 else 0) := by
    revert a b c
    decide
  unfold statusCc
  rw [weights]
  simp only [decide_eq_true_eq, clear]

/-- The mode SETCPU selects (R521). -/
theorem modeFor_eq (s : State) (b : Bool) : s.modeFor b = if decide (b = true ∨ s.cfg.role = .ipu) then .psd else .psw := by
  unfold State.modeFor
  cases s.cfg.role <;> cases b <;> rfl

theorem setCpuMode_eq (s : State) (v : Word) : s.setCpuMode v = { s with
    bmtoEnabled := decide (v.toNat / 2 ^ 17 % 2 = 1)
    trapsEnabled := decide (v.toNat / 2 ^ 16 % 2 = 1)
    mode := if decide (v.toNat / 2 ^ 12 % 2 = 1 ∨ s.cfg.role = .ipu) then .psd else .psw
    mapped := s.mapped && decide (v.toNat / 2 ^ 12 % 2 = 1 ∨ s.cfg.role = .ipu) } := by
  have mode : s.modeFor (v.getLsbD 12) = if decide (v.toNat / 2 ^ 12 % 2 = 1 ∨ s.cfg.role = .ipu) then .psd else .psw := by
    rw [modeFor_eq]
    simp only [getLsbD_eq_decide, decide_eq_true_eq]
  rw [State.setCpuMode, mode, getLsbD_eq_decide, getLsbD_eq_decide]
  cases decide (v.toNat / 2 ^ 12 % 2 = 1 ∨ s.cfg.role = .ipu) <;> rfl

/-! ## Levels -/

theorem classFLevel_eq_none {c : Config} {l : Level} :
    (Config.classFLevel c l).isNone = true ↔ ¬∃ ch ∈ c.channels, ch.cls = .classF ∧ ch.level = l := by
  rw [Option.isNone_iff_eq_none, Config.classFLevel, List.find?_eq_none]
  simp

theorem levelReached_iff (s : State) (l : Level) : s.levelReached l = true ↔
    ¬(2 ≤ l.toNat ∧ l.toNat ≤ 0x11) ∧ (¬∃ ch ∈ s.cfg.channels, ch.cls = .classF ∧ ch.level = l) ∧ l ∈ s.cfg.levels := by
  rw [State.levelReached, Bool.and_eq_true, Bool.and_eq_true, classFLevel_eq_none, Config.levelConfigured, List.contains_iff_mem,
    Bool.not_eq_true', Bool.and_eq_false_iff, decide_eq_false_iff_not, decide_eq_false_iff_not, ← not_and_or, and_assoc]

section
variable {s : State} {l : Level} {action after : State → State}
  (hr : s.cfg.role = .cpu) (hp : s.priv = true)
include hr hp

theorem interruptControl_reached (h : s.levelReached l = true) : interruptControl l action after s = .next (after (action s)) := by
  rw [interruptControl, cpuOnly_cpu hr, privileged_yes hp, if_pos h]

theorem interruptControl_unreached (h : ¬s.levelReached l = true) : interruptControl l action after s = .next (after s) := by
  rw [interruptControl, cpuOnly_cpu hr, privileged_yes hp, if_neg h]

end

theorem constantEnable_iff (s : State) (l : Level) : s.constantEnable l = true ↔ l.toNat < 2 ∧ s.cfg.rtomSoftwareEnable = false := by
  rw [State.constantEnable, Bool.and_eq_true, decide_eq_true_eq, Bool.not_eq_true']

/-! ## Devices -/

section
variable {s : State} (n : BitVec 7) (f : Half) (hr : s.cfg.role = .cpu) (hp : s.priv = true)
include hr hp

theorem execCd_eq : execCd n f s = commandTo n f s := by rw [execCd, cpuOnly_cpu hr, privileged_yes hp]

theorem execTd_eq : execTd n f s = testOf n f s := by rw [execTd, cpuOnly_cpu hr, privileged_yes hp]

end

theorem classFMisuse_psd {s : State} {k : Outcome} (h : s.mode = .psd) : classFMisuse s k = raise (.systemCheck false) s := by
  rw [classFMisuse, h]

theorem classFMisuse_psw {s : State} {k : Outcome} (h : s.mode = .psw) : classFMisuse s k = k := by rw [classFMisuse, h]

/-- The codes of a TD to a Class F channel are its three leading bits (R576). -/
theorem classFTestCc_eq (f : Half) (cc : BitVec 4) :
    classFTestCc f cc = if 0x4000 ≤ f.toNat then 2 else if 0x2000 ≤ f.toNat then 4 else cc := by
  have := f.isLt
  unfold classFTestCc
  simp only [getLsbD_eq_decide, decide_eq_true_eq]
  split
  · exact (if_pos (by omega)).symm
  · split
    · exact (if_pos (by omega)).symm
    · exact Eq.trans (if_congr (by omega) rfl rfl) (if_neg (by omega)).symm

end Machine
open Machine

/-- Settles O51, instruction by instruction. -/
theorem controlInstructionsComplete : Obligations.ControlInstructionsComplete := by
  intro s r f
  refine ⟨fun hp => privileged_yes hp, fun hr hb => ?_, fun hr hm hb => ?_, fun hr hp => ?_, fun hr => ?_, fun hr => ?_,
    fun hp hj => ?_, fun hp hb hj => ?_, fun hj hp => ?_, fun hj => ?_⟩
  · show execWait s = _
    rw [execWait, hr]
    exact if_neg hb
  · show execWait s = _
    rw [execWait, hr]
    exact if_pos ⟨hm, hb⟩
  · show execWait s = _
    rw [execWait, hr]
    exact privileged_yes hp
  · show execSipu s = _
    rw [execSipu, hr]
  · show execCalm f s = _
    rw [execCalm, hr]
    rfl
  · refine (privileged_yes hp).trans ?_
    have allowed : ((s.reg r).getLsbD 12 && !s.cfg.psdJumper) = false := by
      rw [getLsbD_eq_decide]
      cases hb : decide ((s.reg r).toNat / 2 ^ 12 % 2 = 1) with
      | false => rfl
      | true => rw [hj (of_decide_eq_true hb)]; rfl
    rw [if_neg (by rw [allowed]; decide), setCpuMode_eq]
  · refine (privileged_yes hp).trans ?_
    rw [getLsbD_eq_decide, decide_eq_true hb, hj]
    rfl
  · show execRdsts r s = _
    rw [execRdsts, if_pos hj, privileged_yes hp, statusCc_eq]
    rfl
  · show execRdsts r s = _
    rw [execRdsts, if_neg (by rw [hj]; decide)]

/-- Settles O55: a level that is reached, and one that is not. -/
theorem levelInstructionsComplete : Obligations.LevelInstructionsComplete := by
  intro s l hr hp bit classF protect
  constructor
  · intro h
    have unreached : ¬s.levelReached l = true := by
      rw [levelReached_iff]
      rintro ⟨hl, hc, hm⟩
      exact h.elim hl fun h => h.elim hc fun h => h hm
    refine ⟨?_, ?_, ?_, ?_, ?_⟩
    · show execEi l s = _
      exact interruptControl_unreached hr hp unreached
    · show execDi l s = _
      exact interruptControl_unreached hr hp unreached
    · show execRi l s = _
      exact interruptControl_unreached hr hp unreached
    · show execAi l s = _
      exact interruptControl_unreached hr hp unreached
    · show execDai l s = _
      exact interruptControl_unreached hr hp unreached
  · intro hl hc hm
    have reached := (levelReached_iff s l).2 ⟨hl, hc, hm⟩
    have ei : execEi l s = .next (if s.constantEnable l then s else s.setEnabled l true) := interruptControl_reached hr hp reached
    have di : execDi l s = .next (if s.constantEnable l then s else (s.setEnabled l false).setRequesting l false) :=
      interruptControl_reached hr hp reached
    refine ⟨?_, ?_, ?_, fun h => ?_, fun h2 hj => ?_⟩
    · show execRi l s = _
      exact interruptControl_reached hr hp reached
    · show execAi l s = _
      exact interruptControl_reached hr hp reached
    · show execDai l s = _
      exact interruptControl_reached hr hp reached
    · have open_ : ¬s.constantEnable l = true := by
        rw [constantEnable_iff]
        rintro ⟨h2, hj⟩
        rcases h with h | h
        · omega
        · rw [hj] at h; cases h
      rw [if_neg open_] at ei di
      exact ⟨ei, di⟩
    · have constant := (constantEnable_iff s l).2 ⟨h2, hj⟩
      rw [if_pos constant] at ei di
      exact ⟨ei, di⟩

/-- Settles O58, by what the device address names. -/
theorem deviceInstructionsComplete : Obligations.DeviceInstructionsComplete := by
  intro s n f hr hp at_
  refine ⟨fun h => ⟨?_, ?_⟩, fun ch h hc => ⟨?_, Config.testResult s.freeIx n (testCode f), ?_⟩,
    fun ch h hc => ⟨fun hm => ⟨?_, ?_⟩, fun hm => ⟨?_, ?_⟩⟩⟩
  all_goals have hn : Config.channel s.cfg n = _ := h
  · refine (execCd_eq n f hr hp).trans ?_
    rw [commandTo, hn]
  · refine (execTd_eq n f hr hp).trans ?_
    rw [testOf, hn]
    rfl
  · refine (execCd_eq n f hr hp).trans ?_
    rw [commandTo, hn]
    exact if_neg hc
  · refine (execTd_eq n f hr hp).trans ?_
    rw [testOf, hn]
    exact if_neg hc
  · refine (execCd_eq n f hr hp).trans ?_
    rw [commandTo, hn]
    exact (if_pos hc).trans (classFMisuse_psd hm)
  · refine (execTd_eq n f hr hp).trans ?_
    rw [testOf, hn]
    exact (if_pos hc).trans (classFMisuse_psd hm)
  · refine (execCd_eq n f hr hp).trans ?_
    rw [commandTo, hn]
    exact (if_pos hc).trans (classFMisuse_psw hm)
  · refine (execTd_eq n f hr hp).trans ?_
    rw [testOf, hn]
    exact (if_pos hc).trans ((classFMisuse_psw hm).trans (by rw [classFTestCc_eq]; rfl))

end Sys2Proof
end

section
/-! PROOFS. Operands that are written; the stores and the register files (40_load_store.md R217 to R230). -/

namespace Sys2Proof
namespace Machine

/-! ## Stores without bus agents -/

section
variable {s : State} {a pa : Addr} (b : Bool) (hs : s.Alone)
include hs

theorem store8_alone {v : Byte} (h : s.locate .write a 1 = .ok pa) :
    ∃ c, (s.withStop b).store8 a v = .ok () ((s.poke8 pa v).withStop c) := by
  have e := State.withStop_transact b hs
  have h' := State.store8_eq (s := s.withStop b) (la := a) (pa := pa) (v := v) (by rw [e, State.withStop_locate]; exact h)
  rw [e] at h'
  exact ⟨_, h'⟩

theorem store16_alone {v : Half} (h : s.locate .write a 2 = .ok pa) :
    ∃ c, (s.withStop b).store16 a v = .ok () ((s.poke16 pa v).withStop c) := by
  have e := State.withStop_transact b hs
  have h' := State.store16_eq (s := s.withStop b) (la := a) (pa := pa) (v := v) (by rw [e, State.withStop_locate]; exact h)
  rw [e] at h'
  exact ⟨_, h'⟩

theorem store32_alone {v : Word} (h : s.locate .write a 4 = .ok pa) :
    ∃ c, (s.withStop b).store32 a v = .ok () ((s.poke32 pa v).withStop c) := by
  have e := State.withStop_transact b hs
  have h' := State.store32_eq (s := s.withStop b) (la := a) (pa := pa) (v := v) (by rw [e, State.withStop_locate]; exact h)
  rw [e] at h'
  exact ⟨_, h'⟩

theorem store8_fault {t : Trap} {v : Byte} (h : s.locate .write a 1 = .error t) :
    (s.withStop b).store8 a v = .trap t (s.withStop b) := by
  have e := State.withStop_transact b hs
  rw [State.store8_error (t := t) (by rw [e, State.withStop_locate]; exact h), e]

theorem store16_fault {t : Trap} {v : Half} (h : s.locate .write a 2 = .error t) :
    (s.withStop b).store16 a v = .trap t (s.withStop b) := by
  have e := State.withStop_transact b hs
  rw [State.store16_error (t := t) (by rw [e, State.withStop_locate]; exact h), e]

theorem store32_fault {t : Trap} {v : Word} (h : s.locate .write a 4 = .error t) :
    (s.withStop b).store32 a v = .trap t (s.withStop b) := by
  have e := State.withStop_transact b hs
  rw [State.store32_error (t := t) (by rw [e, State.withStop_locate]; exact h), e]

theorem poke32_alone (x : Addr) (v : Word) : (s.poke32 x v).Alone := (State.poke32_bus s x v).trans hs

/-- The low-order word first. -/
theorem store64_alone {pl : Addr} {v : Double} (h : s.locate .write a 4 = .ok pa) (h' : s.locate .write (a + 4) 4 = .ok pl) :
    ∃ c, (s.withStop b).store64 a v =
      .ok () (((s.poke32 pl (v.extractLsb' 0 32)).poke32 pa (v.extractLsb' 32 32)).withStop c) := by
  obtain ⟨c, e⟩ := store32_alone b hs (v := v.extractLsb' 0 32) h'
  have h2 : (s.poke32 pl (v.extractLsb' 0 32)).locate .write a 4 = .ok pa := by rw [State.poke32_locate_write]; exact h
  obtain ⟨d, e'⟩ := store32_alone c (poke32_alone hs _ _) (v := v.extractLsb' 32 32) h2
  exact ⟨d, by rw [State.store64, e, Res.bind_ok, e']⟩

end

/-! ## Instructions that write their operand -/

section
variable (v : Double) (a : Addr) (s : State)

theorem storeMembers_byte : (storeMembers v).byte a s = (s.store8 a (v.extractLsb' 0 8)).finish fun _ u => .next u := rfl
theorem storeMembers_half : (storeMembers v).half a s = (s.store16 a (v.extractLsb' 0 16)).finish fun _ u => .next u := rfl
theorem storeMembers_word : (storeMembers v).word a s = (s.store32 a (v.extractLsb' 0 32)).finish fun _ u => .next u := rfl
theorem storeMembers_double : (storeMembers v).double a s = (s.store64 a v).finish fun _ u => .next u := rfl

end

section
variable {s : State} {i : Instr} {w : Word} {mem : Members} (hx : exec i s = withOperand w mem s)
include hx

theorem onWrite_completes {fb fh fw : Addr → State} {fd : Addr → Addr → State}
    (hb : ∀ (_ : s.Alone) b a pa, s.locate .write a 1 = .ok pa → Outcome.IsNext (mem.byte a (s.withStop b)) (fb pa))
    (hh : ∀ (_ : s.Alone) b a pa, s.locate .write a 2 = .ok pa → Outcome.IsNext (mem.half a (s.withStop b)) (fh pa))
    (hw : ∀ (_ : s.Alone) b a pa, s.locate .write a 4 = .ok pa → Outcome.IsNext (mem.word a (s.withStop b)) (fw pa))
    (hd : ∀ (_ : s.Alone) b a ph pl, s.locate .write a 4 = .ok ph → s.locate .write (a + 4) 4 = .ok pl →
      Outcome.IsNext (mem.double a (s.withStop b)) (fd ph pl)) :
    s.OnWrite w (fun pa => Completes i s (fb pa)) (fun pa => Completes i s (fh pa)) (fun pa => Completes i s (fw pa))
      (fun ph pl => Completes i s (fd ph pl)) := fun hs e s1 he => by
  obtain ⟨b, rfl⟩ := State.effective_withStop hs he
  rw [withOperand, he, Res.finish_ok] at hx
  split
  · rename_i a h
    exact fun pa hp => .of_isNext (by rw [hx, h]) (hb hs b a pa hp)
  · rename_i a h
    exact fun pa hp => .of_isNext (by rw [hx, h]) (hh hs b a pa hp)
  · rename_i a h
    exact fun pa hp => .of_isNext (by rw [hx, h]) (hw hs b a pa hp)
  · rename_i a h
    exact fun ph pl hp hl => .of_isNext (by rw [hx, h]) (hd hs b a ph pl hp hl)

theorem onWriteFault_of {lo : Word}
    (hb : ∀ (_ : s.Alone) b a t, s.locate .write a 1 = .error t → Outcome.Raises (mem.byte a (s.withStop b)) t s)
    (hh : ∀ (_ : s.Alone) b a t, s.locate .write a 2 = .error t → Outcome.Raises (mem.half a (s.withStop b)) t s)
    (hw : ∀ (_ : s.Alone) b a t, s.locate .write a 4 = .error t → Outcome.Raises (mem.word a (s.withStop b)) t s)
    (hd : ∀ (_ : s.Alone) b a t, s.locate .write (a + 4) 4 = .error t → Outcome.Raises (mem.double a (s.withStop b)) t s)
    (hlo : ∀ (_ : s.Alone) b a t pl, s.locate .write (a + 4) 4 = .ok pl → s.locate .write a 4 = .error t →
      Outcome.Raises (mem.double a (s.withStop b)) t (s.poke32 pl lo)) : s.OnWriteFault i w lo := by
  refine ⟨fun t s1 h => by rw [hx, withOperand, h, Res.finish_trap], fun hs e s1 he => ?_⟩
  obtain ⟨b, rfl⟩ := State.effective_withStop hs he
  rw [withOperand, he, Res.finish_ok] at hx
  split
  · rename_i a h
    exact fun t ht => (hb hs b a t ht).imp fun _ e => by rw [hx, h]; exact e
  · rename_i a h
    exact fun t ht => (hh hs b a t ht).imp fun _ e => by rw [hx, h]; exact e
  · rename_i a h
    exact fun t ht => (hw hs b a t ht).imp fun _ e => by rw [hx, h]; exact e
  · rename_i a h
    exact ⟨fun t ht => (hd hs b a t ht).imp fun _ e => by rw [hx, h]; exact e,
      fun t pl hp ht => (hlo hs b a t pl hp ht).imp fun _ e => by rw [hx, h]; exact e⟩

/-- An instruction each of whose members stores: the word `v`, or the pair `hi`, `lo` (R218 to R230). -/
theorem stores_complete {v hi lo : Word}
    (hb : ∀ a b, mem.byte a (s.withStop b) = (storeMembers (BitVec.zeroExtend 64 v)).byte a (s.withStop b))
    (hh : ∀ a b, mem.half a (s.withStop b) = (storeMembers (BitVec.zeroExtend 64 v)).half a (s.withStop b))
    (hw : ∀ a b, mem.word a (s.withStop b) = (storeMembers (BitVec.zeroExtend 64 v)).word a (s.withStop b))
    (hd : ∀ a b, mem.double a (s.withStop b) = (storeMembers (hi ++ lo)).double a (s.withStop b)) :
    s.OnWrite w (fun pa => Completes i s (s.poke8 pa (BitVec.ofNat 8 v.toNat)))
      (fun pa => Completes i s (s.poke16 pa (BitVec.ofNat 16 v.toNat))) (fun pa => Completes i s (s.poke32 pa v))
      (fun ph pl => Completes i s ((s.poke32 pl lo).poke32 ph hi)) ∧
    s.OnWriteFault i w lo := by
  have low (k : Nat) : (BitVec.zeroExtend 64 v).extractLsb' 0 k = BitVec.ofNat k v.toNat := by
    have := v.isLt
    rw [extract_eq_ofNat, BitVec.toNat_setWidth, Nat.mod_eq_of_lt (by omega), Nat.pow_zero, Nat.div_one]
  have word : (BitVec.zeroExtend 64 v).extractLsb' 0 32 = v := by rw [low, BitVec.ofNat_toNat, BitVec.setWidth_eq]
  constructor
  · refine onWrite_completes hx (fun hs b a pa h => ?_) (fun hs b a pa h => ?_) (fun hs b a pa h => ?_) fun hs b a ph pl h h' => ?_
    · obtain ⟨c, e⟩ := store8_alone b hs h
      exact ⟨c, by rw [hb, storeMembers_byte, e, Res.finish_ok, low]⟩
    · obtain ⟨c, e⟩ := store16_alone b hs h
      exact ⟨c, by rw [hh, storeMembers_half, e, Res.finish_ok, low]⟩
    · obtain ⟨c, e⟩ := store32_alone b hs h
      exact ⟨c, by rw [hw, storeMembers_word, e, Res.finish_ok, word]⟩
    · obtain ⟨c, e⟩ := store64_alone b hs h h'
      exact ⟨c, by rw [hd, storeMembers_double, e, Res.finish_ok, extract_append_right, append_high]⟩
  · refine onWriteFault_of hx (fun hs b a t h => ⟨b, ?_⟩) (fun hs b a t h => ⟨b, ?_⟩) (fun hs b a t h => ⟨b, ?_⟩)
      (fun hs b a t h => ⟨b, ?_⟩) fun hs b a t pl h ht => ?_
    · rw [hb, storeMembers_byte, store8_fault b hs h, Res.finish_trap]
    · rw [hh, storeMembers_half, store16_fault b hs h, Res.finish_trap]
    · rw [hw, storeMembers_word, store32_fault b hs h, Res.finish_trap]
    · rw [hd, storeMembers_double, State.store64, store32_fault b hs h]
      rfl
    · obtain ⟨c, e⟩ := store32_alone b hs (v := (hi ++ lo).extractLsb' 0 32) h
      refine ⟨c, ?_⟩
      rw [hd, storeMembers_double, State.store64, e, Res.bind_ok,
        store32_fault c (poke32_alone hs _ _) ((State.poke32_locate_write _ _ _ _).trans ht), extract_append_right]
      rfl

end

/-! ## Register files -/

theorem fileAddress_zero (a : Addr) : fileAddress a 0 = wordAddr a := by
  rw [fileAddress, wordAddr_eq]
  congr 1
  omega

theorem fileNext_fileAddress (a : Addr) (k : Nat) : fileNext (fileAddress a k) = fileAddress a (k + 1) := by
  have h : (fileAddress a k).toNat = a.toNat / 32 * 32 + (a.toNat / 4 + k) % 8 * 4 := by
    rw [fileAddress, BitVec.toNat_ofNat]
    have := a.isLt
    omega
  apply BitVec.eq_of_toNat_eq
  rw [fileNext, append_toNat, append_toNat, BitVec.toNat_add, extract_toNat, extract_toNat, extract_toNat, h, fileAddress,
    BitVec.toNat_ofNat, show (1 : BitVec 3).toNat = 1 from rfl]
  have := a.isLt
  omega

/-- The registers from `m` on replaced by `v`. -/
def State.withFile (s : State) (m : Nat) (v : Nat → Word) : State :=
  { s with regs := Vector.ofFn fun j => if j.val < m then s.regs[j] else v (j.val - m) }

theorem withFile_all (s : State) (v : Nat → Word) : s.withFile 8 v = s := by
  have h : (Vector.ofFn fun j : Fin 8 => if j.val < 8 then s.regs[j] else v (j.val - 8)) = s.regs := by
    refine Vector.ext fun j hj => ?_
    rw [Vector.getElem_ofFn, if_pos hj]
    rfl
  rw [State.withFile, h]

/-- One register loaded, then the others. -/
theorem withFile_setReg (s : State) {m : Nat} (hm : m < 8) (v : Nat → Word) :
    (s.setReg (BitVec.ofNat 3 m) (v 0)).withFile (m + 1) (fun k => v (k + 1)) = s.withFile m v := by
  have num : (BitVec.ofNat 3 m).toNat = m := by
    rw [BitVec.toNat_ofNat]
    exact Nat.mod_eq_of_lt hm
  have h : (Vector.ofFn fun j : Fin 8 => if j.val < m + 1 then (s.setReg (BitVec.ofNat 3 m) (v 0)).regs[j] else v (j.val - (m + 1) + 1)) =
      Vector.ofFn fun j : Fin 8 => if j.val < m then s.regs[j] else v (j.val - m) := by
    refine Vector.ext fun j hj => ?_
    rw [Vector.getElem_ofFn, Vector.getElem_ofFn]
    show (if j < m + 1 then (s.regs.set _ (v 0))[j] else _) = if j < m then s.regs[j] else _
    simp only [num]
    rcases Nat.lt_trichotomy j m with h | rfl | h
    · rw [if_pos (by omega), if_pos h, Vector.getElem_set_ne _ _ (by omega)]
    · rw [if_pos (by omega), if_neg (by omega), Vector.getElem_set_self, Nat.sub_self]
    · rw [if_neg (by omega), if_neg (by omega), show j - (m + 1) + 1 = j - m by omega]
  rw [State.withFile, h]
  rfl

theorem reg_ofNat_add_one {m : Nat} : BitVec.ofNat 3 m + 1 = BitVec.ofNat 3 (m + 1) := (BitVec.ofNat_add m 1).symm

theorem loadFile_complete (a : Addr) : ∀ (n m j : Nat) (s : State) (b : Bool) (v : Nat → Word), s.Alone → m + n = 8 →
    (∀ k, k < n → s.ReadsWord (fileAddress a (j + k)) (v k)) →
    Outcome.IsNext (loadFile n (BitVec.ofNat 3 m) (fileAddress a j) (s.withStop b)) (s.withFile m v)
  | 0, m, j, s, b, v, _, hm, _ => ⟨b, by
      obtain rfl : m = 8 := hm
      rw [withFile_all]
      rfl⟩
  | n + 1, m, j, s, b, v, hs, hm, h => by
    obtain ⟨c, e⟩ := (h 0 (Nat.succ_pos n)).load b hs
    have e : (s.withStop b).load32 (fileAddress a j) = .ok (v 0) (s.withStop c) := e
    obtain ⟨d, e'⟩ := loadFile_complete a n (m + 1) (j + 1) (s.setReg (BitVec.ofNat 3 m) (v 0)) c (fun k => v (k + 1)) hs (by omega)
      fun k hk => by
        have := h (k + 1) (by omega)
        rw [show j + (k + 1) = j + 1 + k by omega] at this
        exact this
    rw [withFile_setReg s (by omega)] at e'
    refine ⟨d, ?_⟩
    rw [loadFile, e, Res.finish_ok, reg_ofNat_add_one, fileNext_fileAddress]
    exact e'

/-- The state after `n` registers from `m` on are stored at `p`. -/
def State.filePokes (s : State) (m n : Nat) (p : Nat → Addr) : State :=
  (List.range n).foldl (fun t k => t.poke32 (p k) (s.reg (BitVec.ofNat 3 (m + k)))) s

theorem filePokes_succ (s : State) (m n : Nat) (p : Nat → Addr) : s.filePokes m (n + 1) p =
    (s.poke32 (p 0) (s.reg (BitVec.ofNat 3 m))).filePokes (m + 1) n fun k => p (k + 1) := by
  have h (k : Nat) : (s.poke32 (p 0) (s.reg (BitVec.ofNat 3 m))).reg (BitVec.ofNat 3 (m + 1 + k)) = s.reg (BitVec.ofNat 3 (m + (k + 1))) := by
    rw [State.poke32_reg, show m + 1 + k = m + (k + 1) by omega]
  simp only [State.filePokes, List.range_succ_eq_map, List.foldl_cons, List.foldl_map, Nat.add_zero, h]

theorem storeFile_complete (a : Addr) : ∀ (n m j : Nat) (s : State) (b : Bool) (p : Nat → Addr), s.Alone →
    (∀ k, k < n → s.locate .write (fileAddress a (j + k)) 4 = .ok (p k)) →
    Outcome.IsNext (storeFile n (BitVec.ofNat 3 m) (fileAddress a j) (s.withStop b)) (s.filePokes m n p)
  | 0, m, j, s, b, p, _, _ => ⟨b, rfl⟩
  | n + 1, m, j, s, b, p, hs, h => by
    have h0 : s.locate .write (fileAddress a j) 4 = .ok (p 0) := h 0 (Nat.succ_pos n)
    obtain ⟨c, e⟩ := store32_alone b hs (v := s.reg (BitVec.ofNat 3 m)) h0
    obtain ⟨d, e'⟩ := storeFile_complete a n (m + 1) (j + 1) (s.poke32 (p 0) (s.reg (BitVec.ofNat 3 m))) c (fun k => p (k + 1))
      (poke32_alone hs _ _) fun k hk => by
        rw [State.poke32_locate_write, show j + 1 + k = j + (k + 1) by omega]
        exact h (k + 1) (by omega)
    refine ⟨d, ?_⟩
    have e : (s.withStop b).store32 (fileAddress a j) ((s.withStop b).reg (BitVec.ofNat 3 m)) = _ := e
    rw [storeFile, e, Res.finish_ok, reg_ofNat_add_one, fileNext_fileAddress, filePokes_succ]
    exact e'

end Machine
open Machine

/-- Settles O31: every store is a store of one value, or of one pair. -/
theorem storesComplete : Obligations.StoresComplete := by
  intro s r stores plain masked zero
  have hp (i : Instr) (w : Word) (hx : exec i s = withOperand w (storeFamily r) s) : plain i w :=
    stores_complete hx (fun _ _ => rfl) (fun _ _ => rfl) (fun _ _ => rfl) fun _ _ => rfl
  have hm (i : Instr) (w : Word) (hx : exec i s = withOperand w (storeMaskedFamily r) s) : masked i w :=
    stores_complete hx (fun _ _ => rfl) (fun _ _ => rfl) (fun _ _ => rfl) fun a b => by
      rw [← and_append]
      rfl
  have hz (i : Instr) (w : Word) (hx : exec i s = withOperand w (storeMembers 0) s) : zero i w :=
    stores_complete hx (fun _ _ => rfl) (fun _ _ => rfl) (fun _ _ => rfl) fun _ _ => rfl
  exact ⟨fun m => hp _ _ rfl, fun m => hp _ _ rfl, fun m => hp _ _ rfl, fun m => hp _ _ rfl, fun m => hm _ _ rfl,
    fun m => hm _ _ rfl, fun m => hm _ _ rfl, fun m => hm _ _ rfl, fun m => hz _ _ rfl, fun m => hz _ _ rfl,
    fun m => hz _ _ rfl, fun m => hz _ _ rfl⟩

/-- Settles O30, by induction on the registers left. -/
theorem registerFilesComplete : Obligations.RegisterFilesComplete := by
  intro s r m e s1 hs he
  obtain ⟨b, rfl⟩ := State.effective_withStop hs he
  have num : BitVec.ofNat 3 r.toNat = r := by rw [BitVec.ofNat_toNat, BitVec.setWidth_eq]
  have lt := r.isLt
  refine ⟨fun v h => ?_, fun p h => ?_⟩
  · have key := loadFile_complete e.ea (8 - r.toNat) r.toNat 0 s b v hs (by omega) fun k hk => by rw [Nat.zero_add]; exact h k hk
    rw [num, fileAddress_zero] at key
    refine .of_isNext ?_ key
    show _ = execLf r m s
    rw [execLf, withWord, he, Res.finish_ok]
  · have key := storeFile_complete e.ea (8 - r.toNat) r.toNat 0 s b p hs fun k hk => by rw [Nat.zero_add]; exact h k hk
    rw [num, fileAddress_zero] at key
    refine .of_isNext ?_ key
    show _ = execStf r m s
    rw [execStf, withWord, he, Res.finish_ok]

end Sys2Proof
end

section
/-! PROOFS. Operands that are read and written as one; the bit instructions and the additions to memory
(48_bit_manipulation.md, 49_fixed_point.md R428 to R431; 20_memory.md R120). -/

namespace Sys2Proof
namespace Machine

/-! ## Accesses while the memory lock is held -/

section
variable {s : State} {a pa : Addr} (c : Bool)

theorem transact_locked : State.transact { s with memLock := true, stopHit := c } = { s with memLock := true, stopHit := c } :=
  State.transact_of_lock rfl

theorem load8_locked (h : s.locate .read a 1 = .ok pa) : ∃ d, State.load8 { s with memLock := true, stopHit := c } a =
    .ok (Memory.read s.mem pa.toNat) { s with memLock := true, stopHit := d } := by
  have h' := State.load8_eq (s := { s with memLock := true, stopHit := c }) (la := a) (pa := pa) (by rw [transact_locked]; exact h)
  rw [transact_locked] at h'
  exact ⟨_, h'⟩

theorem load16_locked (h : s.locate .read a 2 = .ok pa) : ∃ d, State.load16 { s with memLock := true, stopHit := c } a =
    .ok (Memory.read16 s.mem pa) { s with memLock := true, stopHit := d } := by
  have h' := State.load16_eq (s := { s with memLock := true, stopHit := c }) (la := a) (pa := pa) (by rw [transact_locked]; exact h)
  rw [transact_locked] at h'
  exact ⟨_, h'⟩

theorem store8_locked {v : Byte} (h : s.locate .write a 1 = .ok pa) : ∃ d, State.store8 { s with memLock := true, stopHit := c } a v =
    .ok () { s.poke8 pa v with memLock := true, stopHit := d } := by
  have h' := State.store8_eq (s := { s with memLock := true, stopHit := c }) (la := a) (pa := pa) (v := v)
    (by rw [transact_locked]; exact h)
  rw [transact_locked] at h'
  exact ⟨_, h'⟩

theorem store16_locked {v : Half} (h : s.locate .write a 2 = .ok pa) : ∃ d, State.store16 { s with memLock := true, stopHit := c } a v =
    .ok () { s.poke16 pa v with memLock := true, stopHit := d } := by
  have h' := State.store16_eq (s := { s with memLock := true, stopHit := c }) (la := a) (pa := pa) (v := v)
    (by rw [transact_locked]; exact h)
  rw [transact_locked] at h'
  exact ⟨_, h'⟩

section
variable {t : Trap}

theorem load8_locked_fault (h : s.locate .read a 1 = .error t) : State.load8 { s with memLock := true, stopHit := c } a =
    .trap t { s with memLock := true, stopHit := c } := by
  rw [State.load8_error (t := t) (by rw [transact_locked]; exact h), transact_locked]

theorem load16_locked_fault (h : s.locate .read a 2 = .error t) : State.load16 { s with memLock := true, stopHit := c } a =
    .trap t { s with memLock := true, stopHit := c } := by
  rw [State.load16_error (t := t) (by rw [transact_locked]; exact h), transact_locked]

theorem load32_locked_fault (h : s.locate .read a 4 = .error t) : State.load32 { s with memLock := true, stopHit := c } a =
    .trap t { s with memLock := true, stopHit := c } := by
  rw [State.load32_error (t := t) (by rw [transact_locked]; exact h), transact_locked]

theorem store8_locked_fault {v : Byte} (h : s.locate .write a 1 = .error t) : State.store8 { s with memLock := true, stopHit := c } a v =
    .trap t { s with memLock := true, stopHit := c } := by
  rw [State.store8_error (t := t) (by rw [transact_locked]; exact h), transact_locked]

theorem store16_locked_fault {v : Half} (h : s.locate .write a 2 = .error t) : State.store16 { s with memLock := true, stopHit := c } a v =
    .trap t { s with memLock := true, stopHit := c } := by
  rw [State.store16_error (t := t) (by rw [transact_locked]; exact h), transact_locked]

theorem store32_locked_fault {v : Word} (h : s.locate .write a 4 = .error t) : State.store32 { s with memLock := true, stopHit := c } a v =
    .trap t { s with memLock := true, stopHit := c } := by
  rw [State.store32_error (t := t) (by rw [transact_locked]; exact h), transact_locked]

end

theorem load64_locked {pl : Addr} (h : s.locate .read a 4 = .ok pa) (h' : s.locate .read (a + 4) 4 = .ok pl) :
    ∃ d, State.load64 { s with memLock := true, stopHit := c } a =
      .ok (Memory.read32 s.mem pa ++ Memory.read32 s.mem pl) { s with memLock := true, stopHit := d } := by
  obtain ⟨d, e⟩ := State.load32_locked c h'
  obtain ⟨d', e'⟩ := State.load32_locked d h
  exact ⟨d', by rw [State.load64, e, Res.bind_ok, e', Res.bind_ok]⟩

theorem store64_locked {pl : Addr} {v : Double} (h : s.locate .write a 4 = .ok pa) (h' : s.locate .write (a + 4) 4 = .ok pl) :
    ∃ d, State.store64 { s with memLock := true, stopHit := c } a v =
      .ok () { (s.poke32 pl (v.extractLsb' 0 32)).poke32 pa (v.extractLsb' 32 32) with memLock := true, stopHit := d } := by
  obtain ⟨d, e⟩ := State.store32_locked (v := v.extractLsb' 0 32) c h'
  have h2 : (s.poke32 pl (v.extractLsb' 0 32)).locate .write a 4 = .ok pa := by rw [State.poke32_locate_write]; exact h
  obtain ⟨d', e'⟩ := State.store32_locked (v := v.extractLsb' 32 32) d h2
  exact ⟨d', by rw [State.store64, e, Res.bind_ok, e']⟩

end

/-! ## An operand read and written back -/

/-- A value read by `L`, and what `S` writes for it. -/
def readThenWrite {α : Type} (L : State → Res α) (S : α → State → Res Unit) (s : State) : Res α :=
  (L s).bind fun v s1 => (S v s1).bind fun _ s2 => .ok v s2

section
variable {α : Type} {L : State → Res α} {S : α → State → Res Unit} {s u : State} {v : α}

theorem withLock_readThenWrite (hl : ∀ c, ∃ d, L { s.transact with memLock := true, stopHit := c } =
      .ok v { s.transact with memLock := true, stopHit := d })
    (hs : ∀ c, ∃ d, S v { s.transact with memLock := true, stopHit := c } = .ok () { u with memLock := true, stopHit := d }) :
    ∃ d, withLock (readThenWrite L S) s = .ok v (State.withStop { u with memLock := false } d) := by
  obtain ⟨c, e⟩ := hl s.transact.stopHit
  obtain ⟨d, e'⟩ := hs c
  refine ⟨d, withLock_eq (u := { u with memLock := true, stopHit := d }) ?_⟩
  rw [readThenWrite]
  show (L { s.transact with memLock := true, stopHit := s.transact.stopHit }).bind _ = _
  rw [e, Res.bind_ok, e', Res.bind_ok]

/-- The trap of the read, or of the write after it. -/
theorem withLock_readThenWrite_fault {t : Trap}
    (h : (∀ c, ∃ d, L { s.transact with memLock := true, stopHit := c } = .trap t { s.transact with memLock := true, stopHit := d }) ∨
      (∀ c, ∃ d, L { s.transact with memLock := true, stopHit := c } = .ok v { s.transact with memLock := true, stopHit := d }) ∧
        ∀ c, S v { s.transact with memLock := true, stopHit := c } = .trap t { s.transact with memLock := true, stopHit := c }) :
    ∃ d, withLock (readThenWrite L S) s = .trap t (State.withStop { s.transact with memLock := false } d) := by
  have locked : { s.transact with memLock := true } = { s.transact with memLock := true, stopHit := s.transact.stopHit } := rfl
  rcases h with h | ⟨h, h'⟩
  · obtain ⟨d, e⟩ := h s.transact.stopHit
    refine ⟨d, ?_⟩
    unfold withLock
    rw [locked, readThenWrite, e]
    rfl
  · obtain ⟨d, e⟩ := h s.transact.stopHit
    refine ⟨d, ?_⟩
    unfold withLock
    rw [locked, readThenWrite, e, Res.bind_ok, h']
    rfl

end

section
variable {s : State} {a pa : Addr} {t : Trap}

theorem modify8_eq {f : Byte → Byte} (h : s.transact.Modifies a 1 pa) :
    ∃ d, s.modify8 a f = .ok (Memory.read s.transact.mem pa.toNat)
      (State.withStop { s.transact.poke8 pa (f (Memory.read s.transact.mem pa.toNat)) with memLock := false } d) :=
  withLock_readThenWrite (L := fun u => u.load8 a) (S := fun v u => u.store8 a (f v)) (fun c => load8_locked c h.1)
    fun c => store8_locked c h.2

theorem modify16_eq {f : Half → Half} (h : s.transact.Modifies a 2 pa) :
    ∃ d, s.modify16 a f = .ok (Memory.read16 s.transact.mem pa)
      (State.withStop { s.transact.poke16 pa (f (Memory.read16 s.transact.mem pa)) with memLock := false } d) :=
  withLock_readThenWrite (L := fun u => u.load16 a) (S := fun v u => u.store16 a (f v)) (fun c => load16_locked c h.1)
    fun c => store16_locked c h.2

theorem modify32_eq {f : Word → Word} (h : s.transact.Modifies a 4 pa) :
    ∃ d, s.modify32 a f = .ok (Memory.read32 s.transact.mem pa)
      (State.withStop { s.transact.poke32 pa (f (Memory.read32 s.transact.mem pa)) with memLock := false } d) :=
  withLock_readThenWrite (L := fun u => u.load32 a) (S := fun v u => u.store32 a (f v)) (fun c => State.load32_locked c h.1)
    fun c => State.store32_locked c h.2

theorem modify8_fault {f : Byte → Byte} (h : s.transact.ModifyFault a 1 t) :
    ∃ d, s.modify8 a f = .trap t (State.withStop { s.transact with memLock := false } d) := by
  rcases h with h | ⟨⟨pa, h⟩, h'⟩
  · exact withLock_readThenWrite_fault (v := 0) (L := fun u => u.load8 a) (S := fun v u => u.store8 a (f v))
      (.inl fun c => ⟨c, load8_locked_fault c h⟩)
  · exact withLock_readThenWrite_fault (L := fun u => u.load8 a) (S := fun v u => u.store8 a (f v))
      (.inr ⟨fun c => load8_locked c h, fun c => store8_locked_fault c h'⟩)

theorem modify16_fault {f : Half → Half} (h : s.transact.ModifyFault a 2 t) :
    ∃ d, s.modify16 a f = .trap t (State.withStop { s.transact with memLock := false } d) := by
  rcases h with h | ⟨⟨pa, h⟩, h'⟩
  · exact withLock_readThenWrite_fault (v := 0) (L := fun u => u.load16 a) (S := fun v u => u.store16 a (f v))
      (.inl fun c => ⟨c, load16_locked_fault c h⟩)
  · exact withLock_readThenWrite_fault (L := fun u => u.load16 a) (S := fun v u => u.store16 a (f v))
      (.inr ⟨fun c => load16_locked c h, fun c => store16_locked_fault c h'⟩)

theorem modify32_fault {f : Word → Word} (h : s.transact.ModifyFault a 4 t) :
    ∃ d, s.modify32 a f = .trap t (State.withStop { s.transact with memLock := false } d) := by
  rcases h with h | ⟨⟨pa, h⟩, h'⟩
  · exact withLock_readThenWrite_fault (v := 0) (L := fun u => u.load32 a) (S := fun v u => u.store32 a (f v))
      (.inl fun c => ⟨c, load32_locked_fault c h⟩)
  · exact withLock_readThenWrite_fault (L := fun u => u.load32 a) (S := fun v u => u.store32 a (f v))
      (.inr ⟨fun c => State.load32_locked c h, fun c => store32_locked_fault c h'⟩)

end

/-! ## The same without bus agents -/

section
variable {s : State} {a pa : Addr} (b : Bool) (hs : s.Alone)
include hs

theorem State.Modifies.of_alone {n : Nat} (h : s.Modifies a n pa) : (s.withStop b).transact.Modifies a n pa := by
  rw [State.withStop_transact b hs]
  unfold State.Modifies
  rw [State.withStop_locate, State.withStop_locate]
  exact h

theorem State.ModifyFault.of_alone {n : Nat} {t : Trap} (h : s.ModifyFault a n t) : (s.withStop b).transact.ModifyFault a n t := by
  rw [State.withStop_transact b hs]
  unfold State.ModifyFault
  rw [State.withStop_locate, State.withStop_locate]
  exact h

theorem modify8_alone {f : Byte → Byte} (h : s.Modifies a 1 pa) : ∃ d, (s.withStop b).modify8 a f = .ok (Memory.read s.mem pa.toNat)
    (State.withStop { s.poke8 pa (f (Memory.read s.mem pa.toNat)) with memLock := false } d) := by
  obtain ⟨d, e⟩ := modify8_eq (f := f) (h.of_alone b hs)
  rw [State.withStop_transact b hs] at e
  exact ⟨d, e⟩

theorem modify16_alone {f : Half → Half} (h : s.Modifies a 2 pa) : ∃ d, (s.withStop b).modify16 a f = .ok (Memory.read16 s.mem pa)
    (State.withStop { s.poke16 pa (f (Memory.read16 s.mem pa)) with memLock := false } d) := by
  obtain ⟨d, e⟩ := modify16_eq (f := f) (h.of_alone b hs)
  rw [State.withStop_transact b hs] at e
  exact ⟨d, e⟩

theorem modify32_alone {f : Word → Word} (h : s.Modifies a 4 pa) : ∃ d, (s.withStop b).modify32 a f = .ok (Memory.read32 s.mem pa)
    (State.withStop { s.poke32 pa (f (Memory.read32 s.mem pa)) with memLock := false } d) := by
  obtain ⟨d, e⟩ := modify32_eq (f := f) (h.of_alone b hs)
  rw [State.withStop_transact b hs] at e
  exact ⟨d, e⟩

theorem modify64_alone {pl : Addr} {f : Double → Double} (h : s.Modifies a 4 pa) (h' : s.Modifies (a + 4) 4 pl) :
    ∃ d, (s.withStop b).modify64 a f = .ok (Memory.read32 s.mem pa ++ Memory.read32 s.mem pl)
      (State.withStop { (s.poke32 pl ((f (Memory.read32 s.mem pa ++ Memory.read32 s.mem pl)).extractLsb' 0 32)).poke32 pa
        ((f (Memory.read32 s.mem pa ++ Memory.read32 s.mem pl)).extractLsb' 32 32) with memLock := false } d) := by
  have h1 := h.of_alone b hs
  have h2 := h'.of_alone b hs
  rw [State.modify64_of_bus (s := s.withStop b) hs]
  obtain ⟨d, e⟩ := withLock_readThenWrite (s := s.withStop b) (L := fun u => u.load64 a) (S := fun v u => u.store64 a (f v))
    (fun c => load64_locked c h1.1 h2.1) fun c => store64_locked c h1.2 h2.2
  rw [State.withStop_transact b hs] at e
  exact ⟨d, e⟩

theorem modify8_alone_fault {f : Byte → Byte} {t : Trap} (h : s.ModifyFault a 1 t) :
    ∃ d, (s.withStop b).modify8 a f = .trap t (State.withStop { s with memLock := false } d) := by
  obtain ⟨d, e⟩ := modify8_fault (f := f) (h.of_alone b hs)
  rw [State.withStop_transact b hs] at e
  exact ⟨d, e⟩

theorem modify16_alone_fault {f : Half → Half} {t : Trap} (h : s.ModifyFault a 2 t) :
    ∃ d, (s.withStop b).modify16 a f = .trap t (State.withStop { s with memLock := false } d) := by
  obtain ⟨d, e⟩ := modify16_fault (f := f) (h.of_alone b hs)
  rw [State.withStop_transact b hs] at e
  exact ⟨d, e⟩

theorem modify32_alone_fault {f : Word → Word} {t : Trap} (h : s.ModifyFault a 4 t) :
    ∃ d, (s.withStop b).modify32 a f = .trap t (State.withStop { s with memLock := false } d) := by
  obtain ⟨d, e⟩ := modify32_fault (f := f) (h.of_alone b hs)
  rw [State.withStop_transact b hs] at e
  exact ⟨d, e⟩

/-- The traps of a doubleword read and written: of the low-order word's read, of the other's, of the first write. -/
theorem modify64_alone_fault {f : Double → Double} {t : Trap}
    (h : s.locate .read (a + 4) 4 = .error t ∨ (∃ pl, s.locate .read (a + 4) 4 = .ok pl) ∧ s.locate .read a 4 = .error t ∨
      (∃ pl ph, s.locate .read (a + 4) 4 = .ok pl ∧ s.locate .read a 4 = .ok ph) ∧ s.locate .write (a + 4) 4 = .error t) :
    ∃ d, (s.withStop b).modify64 a f = .trap t (State.withStop { s with memLock := false } d) := by
  have hs' := State.withStop_transact b hs
  have key : ∃ d, withLock (readThenWrite (fun u => u.load64 a) fun v u => u.store64 a (f v)) (s.withStop b) =
      .trap t (State.withStop { (s.withStop b).transact with memLock := false } d) := by
    rw [← State.withStop_locate s b, ← State.withStop_locate s b, ← State.withStop_locate s b, ← hs'] at h
    rcases h with h | ⟨⟨pl, h⟩, h'⟩ | ⟨⟨pl, ph, h, h2⟩, h'⟩
    · refine withLock_readThenWrite_fault (v := 0) (.inl fun c => ⟨c, ?_⟩)
      rw [State.load64, load32_locked_fault c h]
      rfl
    · refine withLock_readThenWrite_fault (v := 0) (.inl fun c => ?_)
      obtain ⟨d, e⟩ := State.load32_locked c h
      exact ⟨d, by rw [State.load64, e, Res.bind_ok, load32_locked_fault d h']; rfl⟩
    · refine withLock_readThenWrite_fault (.inr ⟨fun c => load64_locked c h2 h, fun c => ?_⟩)
      rw [State.store64, store32_locked_fault c h']
      rfl
  rw [State.modify64_of_bus (s := s.withStop b) hs]
  rw [hs'] at key
  exact key

end
end Machine
end Sys2Proof
end

section
/-! PROOFS. The bit instructions and the additions to memory (48_bit_manipulation.md, 49_fixed_point.md R428 to
R431). -/

namespace Sys2Proof
namespace Machine

/-! ## Bits -/

theorem byteBit_eq : ∀ c : BitVec 3, byteBit c = BitVec.ofNat 8 (2 ^ (7 - c.toNat)) := by decide

theorem wordBit_eq : ∀ p : BitVec 5, wordBit p = BitVec.ofNat 32 (2 ^ (31 - p.toNat)) := by decide

theorem ccShift_eq : ∀ (cc : BitVec 4) (bit : Bool), ccShift cc bit = BitVec.ofNat 4 (bit.toNat * 8 + cc.toNat / 2) := by decide

theorem wordBit_register (b : BitVec 2) (c : BitVec 3) : wordBit (b ++ c) = BitVec.ofNat 32 (2 ^ (31 - (8 * b.toNat + c.toNat))) := by
  rw [wordBit_eq, append_toNat, show b.toNat * 2 ^ 3 = 8 * b.toNat by omega]

theorem wordBit_memory (a : Addr) (c : BitVec 3) :
    wordBit (bitPosition a c) = BitVec.ofNat 32 (2 ^ (31 - (8 * (a.toNat % 4) + c.toNat))) := by
  rw [bitPosition, wordBit_register, extract_toNat, Nat.pow_zero, Nat.div_one]
  rfl

/-- An addition's flags. -/
theorem setArith_add (s : State) (a b : Word) : s.setArith (addOverflow a b) (a + b) =
    s.afterArith (outOfRange 32 (a.toInt + b.toInt)) (signCc (outOfRange 32 (a.toInt + b.toInt)) (a + b).toInt) := by
  rw [State.setArith_eq, addOverflow_eq (by decide)]

section
variable {s s1 : State} {i : Instr} {m : MemRef 20} {k : Addr → State → Outcome} {e : Effective}

theorem withByte_of (hx : exec i s = withByte m k s) (he : s.effective m.word = .ok e s1) (hf : e.ef = true) :
    exec i s = k e.ea s1 := by
  rw [hx, withByte, he, Res.finish_ok, if_pos hf]

theorem withByte_undefined (hx : exec i s = withByte m k s) (he : s.effective m.word = .ok e s1) (hf : e.ef = false) :
    exec i s = raise .undefined s1 := by
  rw [hx, withByte, he, Res.finish_ok, if_neg (by rw [hf]; decide)]

end

section
variable {s : State} {a pa : Addr} (b : Bool) (hs : s.Alone)
include hs

theorem isNext_modifyBit {f : Byte → Byte} {c : BitVec 3} (h : s.Modifies a 1 pa) :
    Outcome.IsNext (modifyBit f c a (s.withStop b)) { s.poke8 pa (f (Memory.read s.mem pa.toNat)) with
      cc := ccShift s.cc (byteHas (Memory.read s.mem pa.toNat) c), memLock := false } := by
  obtain ⟨d, e⟩ := modify8_alone b hs (f := f) h
  exact ⟨d, by rw [modifyBit, e, Res.finish_ok]; rfl⟩

theorem raises_modifyBit {f : Byte → Byte} {c : BitVec 3} {t : Trap} (h : s.ModifyFault a 1 t) :
    Outcome.Raises (modifyBit f c a (s.withStop b)) t { s with memLock := false } := by
  obtain ⟨d, e⟩ := modify8_alone_fault b hs (f := f) h
  exact ⟨d, by rw [modifyBit, e, Res.finish_trap]⟩

end

/-- The lock and the panel's stop match are nothing to registers and flags. -/
theorem marked_reg (t : State) (k d : Bool) (r : Reg) : (State.withStop { t with memLock := k } d).reg r = t.reg r := rfl

theorem marked_regPair (t : State) (k d : Bool) (r : Reg) : (State.withStop { t with memLock := k } d).regPair r = t.regPair r := rfl

theorem marked_setArith {n : Nat} (t : State) (k d ae : Bool) (v : BitVec n) :
    (State.withStop { t with memLock := k } d).setArith ae v = State.withStop { t.setArith ae v with memLock := k } d := rfl

theorem poke32_regPair (s : State) (x : Addr) (v : Word) (r : Reg) : (s.poke32 x v).regPair r = s.regPair r := by
  rw [State.regPair, State.poke32_reg, State.poke32_reg]
  rfl

theorem busWrites_bus (s : State) (l : List (Addr × Byte)) : (s.busWrites l).bus = s.bus := by
  obtain ⟨m, p, e⟩ := State.busWrites_frame l s
  rw [e]

theorem transact_regPair (s : State) (r : Reg) : s.transact.regPair r = s.regPair r := by
  simp only [State.regPair, State.reg, State.transact_regs]

section
variable {s s1 : State} {c : BitVec 3} {m : MemRef 20} {e : Effective} {pa : Addr} (hs : s.Alone) (he : s.effective m.word = .ok e s1)
  (hf : e.ef = true)
include hs he hf

/-- The condition code a tested bit leaves (R401). -/
theorem completes_tbm (h : s.locate .read e.ea 1 = .ok pa) :
    Completes (.tbm c m) s { s with cc := ccShift s.cc (byteHas (Memory.read s.mem pa.toNat) c) } := by
  obtain ⟨b, rfl⟩ := State.effective_withStop hs he
  exact .of_isNext (withByte_of (k := fun a u => (u.load8 a).finish fun v u => .next (u.setCc (ccShift u.cc (byteHas v c)))) rfl he hf).symm
    (isNext_load8 b hs ⟨pa, h, rfl⟩ (f := fun v u => u.setCc (ccShift u.cc (byteHas v c))) fun _ => rfl)

theorem completes_sbm (h : s.Modifies e.ea 1 pa) : Completes (.sbm c m) s
    { s.poke8 pa (Memory.read s.mem pa.toNat ||| byteBit c) with
      cc := ccShift s.cc (byteHas (Memory.read s.mem pa.toNat) c), memLock := false } := by
  obtain ⟨b, rfl⟩ := State.effective_withStop hs he
  exact .of_isNext (withByte_of rfl he hf).symm (isNext_modifyBit b hs (f := fun b => b ||| byteBit c) h)

theorem completes_zbm (h : s.Modifies e.ea 1 pa) : Completes (.zbm c m) s
    { s.poke8 pa (Memory.read s.mem pa.toNat &&& ~~~byteBit c) with
      cc := ccShift s.cc (byteHas (Memory.read s.mem pa.toNat) c), memLock := false } := by
  obtain ⟨b, rfl⟩ := State.effective_withStop hs he
  exact .of_isNext (withByte_of rfl he hf).symm (isNext_modifyBit b hs (f := fun b => b &&& ~~~byteBit c) h)

omit hs in
theorem exec_abm {b : Bool} (hb : s1 = s.withStop b) : exec (.abm c m) s =
    ((s.withStop b).modify32 (BitVec.ofNat 24 (e.ea.toNat / 4 * 4)) fun w => w + wordBit (bitPosition e.ea c)).finish fun w u =>
      .next (u.setArith (addOverflow w (wordBit (bitPosition e.ea c))) (w + wordBit (bitPosition e.ea c))) := by
  subst hb
  rw [← wordAddr_eq]
  exact withByte_of (k := fun a u => (u.modify32 (wordAddr a) fun w => w + wordBit (bitPosition a c)).finish fun w u =>
      .next (u.setArith (addOverflow w (wordBit (bitPosition a c))) (w + wordBit (bitPosition a c)))) rfl he hf

theorem completes_abm (h : s.Modifies (BitVec.ofNat 24 (e.ea.toNat / 4 * 4)) 4 pa) {one : Word}
    (h1 : one = wordBit (bitPosition e.ea c)) : Completes (.abm c m) s
    { (s.poke32 pa (Memory.read32 s.mem pa + one)).setArith (addOverflow (Memory.read32 s.mem pa) one)
        (Memory.read32 s.mem pa + one) with memLock := false } := by
  subst h1
  obtain ⟨b, hb⟩ := State.effective_withStop hs he
  obtain ⟨d, e'⟩ := modify32_alone b hs (f := fun w => w + wordBit (bitPosition e.ea c)) h
  refine ⟨d, ?_⟩
  rw [exec_abm he hf hb, e', Res.finish_ok, marked_setArith]

end

/-! ## Additions to memory -/

/-- The low bits of the sum of a register and a field that reaches from bit 0. -/
theorem zero_sum_iff (a : Word) (b : Byte) : a + BitVec.zeroExtend 32 b = 0 ↔ (a.toNat + b.toNat) % 2 ^ 32 = 0 := by
  have hb := b.isLt
  rw [BitVec.toNat_eq, BitVec.toNat_add, BitVec.toNat_setWidth, Nat.mod_eq_of_lt (show b.toNat < 2 ^ 32 by omega)]
  rfl

theorem low_byte_sum (a : Word) (b : Byte) : (a + BitVec.zeroExtend 32 b).extractLsb' 0 8 = BitVec.ofNat 8 (a.toNat + b.toNat) := by
  apply BitVec.eq_of_toNat_eq
  have hb := b.isLt
  rw [extract_toNat, BitVec.toNat_add, BitVec.toNat_setWidth, Nat.mod_eq_of_lt (show b.toNat < 2 ^ 32 by omega), BitVec.toNat_ofNat]
  omega

theorem low_half_sum (a : Word) (h : Half) : a.extractLsb' 0 16 + h = BitVec.ofNat 16 (a.toNat + h.toNat) := by
  rw [BitVec.ofNat_add, extract_eq_ofNat, Nat.pow_zero, Nat.div_one, BitVec.ofNat_toNat 16 h, BitVec.setWidth_eq]

theorem half_sum_zero_iff (a : Word) (h : Half) : a.extractLsb' 0 16 + h = 0 ↔ (a.toNat + h.toNat) % 2 ^ 16 = 0 := by
  rw [low_half_sum, BitVec.toNat_eq, BitVec.toNat_ofNat]
  rfl

section
variable {s : State} {a pa : Addr} {r : Reg} (b : Bool) (hs : s.Alone)
include hs

theorem isNext_addRegToByte (h : s.Modifies a 1 pa) : Outcome.IsNext (addRegToByte r a (s.withStop b))
    { s.poke8 pa (BitVec.ofNat 8 ((s.reg r).toNat + (Memory.read s.mem pa.toNat).toNat)) with
      cc := Config.freeCc s.freeIx ++ BitVec.ofBool (decide (((s.reg r).toNat + (Memory.read s.mem pa.toNat).toNat) % 2 ^ 32 = 0))
      freeIx := s.freeIx + 1
      memLock := false } := by
  obtain ⟨d, e⟩ := modify8_alone b hs (f := fun v => (s.reg r + BitVec.zeroExtend 32 v).extractLsb' 0 8) h
  refine ⟨d, ?_⟩
  have e : (s.withStop b).modify8 a (fun v => ((s.withStop b).reg r + BitVec.zeroExtend 32 v).extractLsb' 0 8) = _ := e
  rw [addRegToByte, e, Res.finish_ok, low_byte_sum]
  simp only [zero_sum_iff]
  rfl

theorem isNext_addRegToHalf (h : s.Modifies a 2 pa) : Outcome.IsNext (addRegToHalf r a (s.withStop b))
    { s.poke16 pa (BitVec.ofNat 16 ((s.reg r).toNat + (Memory.read16 s.mem pa).toNat)) with
      cc := Config.freeCc s.freeIx ++ BitVec.ofBool (decide (((s.reg r).toNat + (Memory.read16 s.mem pa).toNat) % 2 ^ 16 = 0))
      freeIx := s.freeIx + 1
      memLock := false } := by
  obtain ⟨d, e⟩ := modify16_alone b hs (f := fun v => (s.reg r).extractLsb' 0 16 + v) h
  refine ⟨d, ?_⟩
  have e : (s.withStop b).modify16 a (fun v => ((s.withStop b).reg r).extractLsb' 0 16 + v) = _ := e
  rw [addRegToHalf, e, Res.finish_ok, low_half_sum (s.reg r)]
  simp only [half_sum_zero_iff]
  rfl

theorem isNext_addRegToWord (h : s.Modifies a 4 pa) : Outcome.IsNext (addRegToWord r a (s.withStop b))
    { (s.poke32 pa (s.reg r + Memory.read32 s.mem pa)).setArith (addOverflow (s.reg r) (Memory.read32 s.mem pa))
        (s.reg r + Memory.read32 s.mem pa) with memLock := false } := by
  obtain ⟨d, e⟩ := modify32_alone b hs (f := fun v => s.reg r + v) h
  refine ⟨d, ?_⟩
  have e : (s.withStop b).modify32 a (fun v => (s.withStop b).reg r + v) = _ := e
  rw [addRegToWord, e, Res.finish_ok, marked_reg, State.poke32_reg, marked_setArith]

theorem isNext_addRegToDouble {pl : Addr} (h : s.Modifies a 4 pa) (h' : s.Modifies (a + 4) 4 pl) {x v : Double}
    (hv : v = Memory.read32 s.mem pa ++ Memory.read32 s.mem pl) (hx : x = s.regPair r + v) :
    Outcome.IsNext (addRegToDouble r a (s.withStop b))
      { ((s.poke32 pl (x.extractLsb' 0 32)).poke32 pa (x.extractLsb' 32 32)).setArith (addOverflow (s.regPair r) v) x with
        memLock := false } := by
  subst hv hx
  obtain ⟨d, e⟩ := modify64_alone b hs (f := fun v => s.regPair r + v) h h'
  refine ⟨d, ?_⟩
  have e : (s.withStop b).modify64 a (fun v => (s.withStop b).regPair r + v) = _ := e
  rw [addRegToDouble, e, Res.finish_ok, marked_regPair, poke32_regPair, poke32_regPair, marked_setArith]

section
variable {t : Trap}

theorem raises_addRegToByte (h : s.ModifyFault a 1 t) :
    Outcome.Raises (addRegToByte r a (s.withStop b)) t { s with memLock := false } := by
  obtain ⟨d, e⟩ := modify8_alone_fault b hs (f := fun v => ((s.withStop b).reg r + BitVec.zeroExtend 32 v).extractLsb' 0 8) h
  exact ⟨d, by rw [addRegToByte, e, Res.finish_trap]⟩

theorem raises_addRegToHalf (h : s.ModifyFault a 2 t) :
    Outcome.Raises (addRegToHalf r a (s.withStop b)) t { s with memLock := false } := by
  obtain ⟨d, e⟩ := modify16_alone_fault b hs (f := fun v => ((s.withStop b).reg r).extractLsb' 0 16 + v) h
  exact ⟨d, by rw [addRegToHalf, e, Res.finish_trap]⟩

theorem raises_addRegToWord (h : s.ModifyFault a 4 t) :
    Outcome.Raises (addRegToWord r a (s.withStop b)) t { s with memLock := false } := by
  obtain ⟨d, e⟩ := modify32_alone_fault b hs (f := fun v => (s.withStop b).reg r + v) h
  exact ⟨d, by rw [addRegToWord, e, Res.finish_trap]⟩

theorem raises_addRegToDouble
    (h : s.locate .read (a + 4) 4 = .error t ∨ (∃ pl, s.locate .read (a + 4) 4 = .ok pl) ∧ s.locate .read a 4 = .error t ∨
      (∃ pl ph, s.locate .read (a + 4) 4 = .ok pl ∧ s.locate .read a 4 = .ok ph) ∧ s.locate .write (a + 4) 4 = .error t) :
    Outcome.Raises (addRegToDouble r a (s.withStop b)) t { s with memLock := false } := by
  obtain ⟨d, e⟩ := modify64_alone_fault b hs (f := fun v => (s.withStop b).regPair r + v) h
  exact ⟨d, by rw [addRegToDouble, e, Res.finish_trap]⟩

end
end

end Machine
open Machine

/-- Settles O42: the register forms by their one bit, the memory forms as one read and write. -/
theorem bitInstructionsComplete : Obligations.BitInstructionsComplete := by
  intro s c shifted sum
  have hbit : byteBit c = BitVec.ofNat 8 (2 ^ (7 - c.toNat)) := byteBit_eq c
  refine ⟨?_, fun m e s1 hs he => ⟨?_, ?_, ?_, fun hf i hi => ?_⟩, ?_⟩
  · intro r b one bit
    have h1 : wordBit (b ++ c) = one := wordBit_register b c
    refine ⟨?_, ?_, ?_, ?_⟩
    · show execSbr c r b s = _
      rw [execSbr, wordHas, h1, ccShift_eq]
    · show execZbr c r b s = _
      rw [execZbr, wordHas, h1, ccShift_eq]
    · show execTbr c r b s = _
      rw [execTbr, wordHas, h1, ccShift_eq]
    · show execAbr c r b s = _
      rw [execAbr, h1, setArith_add]
  · intro hf pa v one after
    refine ⟨fun h => ?_, fun h => ?_, fun h => ?_⟩
    · have key := completes_tbm (c := c) hs he hf h
      rw [ccShift_eq, byteHas, hbit] at key
      exact key
    · have key := completes_sbm (c := c) hs he hf h
      rw [ccShift_eq, byteHas, hbit] at key
      exact key
    · have key := completes_zbm (c := c) hs he hf h
      rw [ccShift_eq, byteHas, hbit] at key
      exact key
  · intro hf pa h v one
    have key := completes_abm (c := c) (one := one) hs he hf h (wordBit_memory e.ea c).symm
    rw [setArith_add] at key
    exact key
  · intro hf t raises
    obtain ⟨b, rfl⟩ := State.effective_withStop hs he
    refine ⟨fun h => ⟨b, ?_⟩, fun h => ⟨?_, ?_⟩, fun h => ?_⟩
    · refine (withByte_of (k := fun a u => (u.load8 a).finish fun v u => .next (u.setCc (ccShift u.cc (byteHas v c)))) rfl he hf).trans ?_
      rw [load8_fault b hs h, Res.finish_trap]
    · obtain ⟨d, e'⟩ := raises_modifyBit b hs (f := fun b => b ||| byteBit c) (c := c) h
      exact ⟨d, (withByte_of rfl he hf).trans e'⟩
    · obtain ⟨d, e'⟩ := raises_modifyBit b hs (f := fun b => b &&& ~~~byteBit c) (c := c) h
      exact ⟨d, (withByte_of rfl he hf).trans e'⟩
    · obtain ⟨d, e'⟩ := modify32_alone_fault b hs (f := fun w => w + wordBit (bitPosition e.ea c)) h
      exact ⟨d, by rw [exec_abm he hf rfl, e', Res.finish_trap]⟩
  · rcases hi with rfl | rfl | rfl | rfl
    · exact withByte_undefined (k := modifyBit (fun b => b ||| byteBit c) c) rfl he hf
    · exact withByte_undefined (k := modifyBit (fun b => b &&& ~~~byteBit c) c) rfl he hf
    · exact withByte_undefined (k := fun a u => (u.modify32 (wordAddr a) fun w => w + wordBit (bitPosition a c)).finish fun w u =>
        .next (u.setArith (addOverflow w (wordBit (bitPosition a c))) (w + wordBit (bitPosition a c)))) rfl he hf
    · exact withByte_undefined (k := fun a u => (u.load8 a).finish fun v u => .next (u.setCc (ccShift u.cc (byteHas v c)))) rfl he hf
  · intro m l rest hi hl hb found e pa he hf h v one
    have first : s.transact = found := transact_cons hl hb
    rw [← first] at h
    obtain ⟨d, e'⟩ := modify8_eq (f := fun b => b ||| byteBit c) h
    refine ⟨d, (withByte_of (k := modifyBit (fun b => b ||| byteBit c) c) rfl he hf).trans ?_⟩
    have cc : s.transact.cc = s.cc := State.transact_cc s
    rw [modifyBit, e', Res.finish_ok, byteHas, hbit, ccShift_eq]
    rw [first] at cc ⊢
    show Host.Outcome.next (State.withStop { found.poke8 pa _ with
      memLock := false, cc := BitVec.ofNat 4 (Bool.toNat _ * 8 + found.cc.toNat / 2) } d) = _
    rw [cc]

/-- Settles O44, by the operand. -/
theorem addToMemoryComplete : Obligations.AddToMemoryComplete := by
  intro s r m h d pair raises stops refuses adds
  have go (i : Instr) (w : Word) (hx : exec i s = withOperand w (addRegMembers r) s) : adds i w := by
    refine ⟨fun e s1 hs he => ?_, fun e s1 hs he => ?_⟩
    all_goals
      obtain ⟨b, rfl⟩ := State.effective_withStop hs he
      rw [withOperand, he, Res.finish_ok] at hx
    · split
      · rename_i a ho
        rw [ho] at hx
        exact fun t ht => (raises_addRegToByte b hs ht).imp fun _ e => hx.trans e
      · rename_i a ho
        rw [ho] at hx
        exact fun t ht => (raises_addRegToHalf b hs ht).imp fun _ e => hx.trans e
      · rename_i a ho
        rw [ho] at hx
        exact fun t ht => (raises_addRegToWord b hs ht).imp fun _ e => hx.trans e
      · rename_i a ho
        rw [ho] at hx
        exact fun t => ⟨fun h => (raises_addRegToDouble b hs (.inl h)).imp fun _ e => hx.trans e,
          fun pl h h' => (raises_addRegToDouble b hs (.inr (.inl ⟨⟨pl, h⟩, h'⟩))).imp fun _ e => hx.trans e,
          fun pl ph h h' h2 => (raises_addRegToDouble b hs (.inr (.inr ⟨⟨pl, ph, h, h'⟩, h2⟩))).imp fun _ e => hx.trans e⟩
    · split
      · rename_i a ho
        rw [ho] at hx
        exact fun pa hp => ⟨_, .of_isNext hx.symm (isNext_addRegToByte b hs hp)⟩
      · rename_i a ho
        rw [ho] at hx
        exact fun pa hp => ⟨_, .of_isNext hx.symm (isNext_addRegToHalf b hs hp)⟩
      · rename_i a ho
        rw [ho] at hx
        intro pa hp v
        have key := isNext_addRegToWord (r := r) b hs hp
        rw [setArith_add, add_eq_ofInt] at key
        exact .of_isNext hx.symm key
      · rename_i a ho
        rw [ho] at hx
        intro ph pl hh hl v x
        have key := isNext_addRegToDouble (r := r) b hs hh hl rfl (x := x) (add_eq_ofInt _ _).symm
        rw [State.setArith_eq, addOverflow_eq (by decide)] at key
        exact .of_isNext hx.symm key
  refine ⟨go _ _ rfl, go _ _ rfl, go _ _ rfl, go _ _ rfl, ?_⟩
  intro _ hm hl l1 l2 rest hb first second e a pl ph he ho h1 h2 v x between
  have t1 : s.transact = first := transact_cons hl hb
  have bus : first.bus = l2 :: rest := busWrites_bus _ _
  have lock : first.memLock = false := by rw [← t1, State.transact_memLock, hl]
  have t2 : s.transact.transact = second := by rw [t1]; exact transact_cons lock bus
  have t3 : (s.transact.poke32 pl (x.extractLsb' 0 32)).transact = between := by
    rw [t1]
    exact transact_cons ((State.poke32_memLock _ _ _).trans lock) ((State.poke32_bus _ _ _).trans bus)
  have hv : Memory.read32 s.transact.transact.mem ph ++ Memory.read32 s.transact.mem pl =
      Memory.read32 second.mem ph ++ Memory.read32 first.mem pl := by rw [t2, t1]
  have hsum : s.regPair r + (Memory.read32 second.mem ph ++ Memory.read32 first.mem pl) = x := add_eq_ofInt _ _
  obtain ⟨c, e'⟩ := State.modify64_eq (f := fun v => s.regPair r + v) hl hm.1 (a := a) (pl := pl) (ph := ph) (by rw [t1]; exact h1.1)
    (by rw [t1]; exact h1.2) (by rw [t2]; exact h2.1) (by rw [t2]; exact h2.2)
  rw [hv, hsum, t3] at e'
  refine ⟨c, ?_⟩
  show withOperand d.ofDouble.word (addRegMembers r) s = _
  have regs : (between.poke32 ph (x.extractLsb' 32 32)).regPair r = s.regPair r := by
    rw [poke32_regPair, ← t3, transact_regPair, poke32_regPair, transact_regPair]
  rw [withOperand, he, Res.finish_ok, ho]
  show addRegToDouble r a s = _
  have e' : s.modify64 a (fun v => s.regPair r + v) =
    .ok _ (State.withStop { between.poke32 ph (x.extractLsb' 32 32) with memLock := false } c) := e'
  rw [addRegToDouble, e', Res.finish_ok, marked_regPair, regs, marked_setArith, State.setArith_eq, addOverflow_eq (by decide), hsum]
  rfl

end Sys2Proof
end

section
/-! PROOFS. Writable Control Storage (43_wcs.md). -/

namespace Sys2Proof
namespace Machine

/-! ## WCS as data -/

theorem Wcs.read_of_lt {a : Nat} : ∀ {m : List (Nat × Double)} {lo : Nat}, Wcs.wfFrom lo m = true → a < lo → Wcs.read m a = 0
  | [], _, _, _ => rfl
  | (k, v) :: t, lo, h, ha => by
    obtain ⟨hk, -, -⟩ := Wcs.wfFrom_cons.1 h
    rw [Wcs.read, if_neg (by omega), if_pos (by omega)]

theorem Wcs.read_write {a : Nat} {b : Double} (x : Nat) : ∀ {m : List (Nat × Double)} {lo : Nat}, Wcs.wfFrom lo m = true →
    Wcs.read (Wcs.write m a b) x = if x = a then b else Wcs.read m x
  | [], lo, _ => by
    rw [Wcs.write]
    by_cases hb : b = 0
    · rw [if_pos hb, hb, Wcs.read]
      split <;> rfl
    · rw [if_neg hb, Wcs.read, Wcs.read]
      split
      · rfl
      · split <;> rfl
  | (k, v) :: t, lo, h => by
    obtain ⟨hk, -, ht⟩ := Wcs.wfFrom_cons.1 h
    have tail (y : Nat) (hy : y ≤ k) : Wcs.read t y = 0 := Wcs.read_of_lt ht (by omega)
    rw [Wcs.write]
    rcases Nat.lt_trichotomy a k with hak | rfl | hak
    · rw [if_neg (by omega), if_pos hak]
      by_cases hb : b = 0
      · rw [if_pos hb]
        split
        · rw [Wcs.read, if_neg (by omega), if_pos (by omega), hb]
        · rfl
      · rw [if_neg hb, Wcs.read]
        by_cases hx : x = a
        · rw [if_pos hx, if_pos hx]
        · rw [if_neg hx, if_neg hx]
          split
          · rw [Wcs.read, if_neg (by omega), if_pos (by omega)]
          · rfl
    · rw [if_pos rfl]
      by_cases hx : x = a
      · rw [if_pos hx, hx]
        split
        · rw [tail a (le_refl a)]
          exact (‹b = 0›).symm
        · rw [Wcs.read, if_pos rfl]
      · rw [if_neg hx]
        have old : Wcs.read ((a, v) :: t) x = if x < a then 0 else Wcs.read t x := by rw [Wcs.read, if_neg hx]
        split
        · rw [old]
          split
          · exact tail x (by omega)
          · rfl
        · rw [old, Wcs.read, if_neg hx]
    · rw [if_neg (by omega), if_neg (by omega), Wcs.read, Wcs.read, Wcs.read_write x ht]
      by_cases hx : x = a
      · rw [if_neg (by omega), if_neg (by omega), if_pos hx, if_pos hx]
      · rw [if_neg hx, if_neg hx]

/-! ## Operands and errors -/

section
variable (s : State) (v : Word)

theorem registerWordAddr_eq : s.registerWordAddr v = s.wcsOperand v := by
  have := v.isLt
  apply BitVec.eq_of_toNat_eq
  rw [State.registerWordAddr, wordAddr_eq, State.wcsOperand]
  split
  · rw [extract_toNat, BitVec.toNat_ofNat, BitVec.toNat_ofNat]
    omega
  · rw [BitVec.toNat_setWidth, extract_toNat, BitVec.toNat_ofNat, BitVec.toNat_ofNat]
    omega

theorem nextWord_eq (a : Addr) : s.nextWord a = if s.ext then a + 4 else BitVec.ofNat 24 ((a.toNat + 4) % 2 ^ 19) := by
  rw [State.nextWord]
  split
  · rfl
  · apply BitVec.eq_of_toNat_eq
    rw [BitVec.toNat_setWidth, extract_toNat, BitVec.toNat_add, BitVec.toNat_ofNat, show (4 : Addr).toNat = 4 from rfl]
    omega

theorem nextWord_wcsOperand : s.nextWord (s.wcsOperand v) = s.wcsOperandNext v := by rw [nextWord_eq, State.wcsOperandNext]

theorem wcsError_eq : s.wcsError = { s with spad := if s.cfg.role = .cpu then s.spad.set 0x91 (s.status ||| 0x200) else s.spad } := by
  unfold State.wcsError
  cases h : s.cfg.role <;> rfl

theorem wcsAbsent_eq : wcsAbsent s = raise .undefined { s with
    cc := 8, spad := if s.cfg.role = .cpu then s.spad.set 0x91 (s.status ||| 0x200) else s.spad } := by
  rw [wcsAbsent, wcsError_eq]
  rfl

end

/-! ## The transfers -/

section
variable {s : State} {sr d : Reg} (hs : s.Alone) (hp : s.priv = true)
include hs hp

theorem completes_wwcs (hw : (s.reg d).toNat < s.cfg.wcsBoards.words) {hi lo : Word} (h : s.ReadsWord (s.wcsOperand (s.reg sr)) hi)
    (h' : s.ReadsWord (s.wcsOperandNext (s.reg sr)) lo) :
    Completes (.wwcs sr d) s { s with wcs := Wcs.write s.wcs (s.reg d).toNat (hi ++ lo), cc := 0 } := by
  obtain ⟨b, e⟩ := h.load s.stopHit hs
  obtain ⟨c, e'⟩ := h'.load b hs
  refine ⟨c, ?_⟩
  show execWwcs sr d s = _
  have e : s.load32 (s.wcsOperand (s.reg sr)) = _ := e
  have installed : s.wcsPresent (s.reg d) = true := decide_eq_true hw
  rw [execWwcs, privileged_yes hp, if_pos installed, registerWordAddr_eq, e, Res.finish_ok, nextWord_wcsOperand, e',
    Res.finish_ok]
  rfl

theorem completes_rwcs (hw : (s.reg sr).toNat < s.cfg.wcsBoards.words) {ph pl : Addr}
    (h : s.locate .write (s.wcsOperand (s.reg d)) 4 = .ok ph) (h' : s.locate .write (s.wcsOperandNext (s.reg d)) 4 = .ok pl) :
    Completes (.rwcs sr d) s { (s.poke32 ph ((Wcs.read s.wcs (s.reg sr).toNat).extractLsb' 32 32)).poke32 pl
      ((Wcs.read s.wcs (s.reg sr).toNat).extractLsb' 0 32) with cc := 0 } := by
  obtain ⟨b, e⟩ := store32_alone s.stopHit hs (v := (Wcs.read s.wcs (s.reg sr).toNat).extractLsb' 32 32) h
  obtain ⟨c, e'⟩ := store32_alone b (poke32_alone hs ph ((Wcs.read s.wcs (s.reg sr).toNat).extractLsb' 32 32))
    (v := (Wcs.read s.wcs (s.reg sr).toNat).extractLsb' 0 32) ((State.poke32_locate_write _ _ _ _).trans h')
  refine ⟨c, ?_⟩
  show execRwcs sr d s = _
  have e : s.store32 (s.wcsOperand (s.reg d)) _ = _ := e
  have installed : s.wcsPresent (s.reg sr) = true := decide_eq_true hw
  rw [execRwcs, privileged_yes hp, if_pos installed, registerWordAddr_eq]
  dsimp only
  rw [e, Res.finish_ok, nextWord_wcsOperand, e', Res.finish_ok]
  rfl

end

/-- What a WCS routine's writes leave. -/
theorem pokeAll_eq : ∀ (l : List (Addr × Byte)) (s : State), ∃ p b, State.pokeAll l s =
    { s with mem := l.foldl (fun m x => Memory.write m x.1.toNat x.2) s.mem, parityBad := p, stopHit := b }
  | [], s => ⟨s.parityBad, s.stopHit, rfl⟩
  | (a, v) :: l, s => by
    obtain ⟨p, b, e⟩ := pokeAll_eq l ((s.poke8 a v).noteWrite a)
    exact ⟨p, b, e⟩

end Machine
open Machine

/-- Settles O35, instruction by instruction. -/
theorem wcsInstructionsComplete : Obligations.WcsInstructionsComplete := by
  intro s sr d error
  refine ⟨fun hs hp hw hi lo h h' => completes_wwcs hs hp hw h h', fun hs hp hw ph pl h h' => completes_rwcs hs hp hw h h',
    fun hm a b v => Wcs.read_write b hm.2, ?_, fun m hb => ?_, fun hp hw => ?_, fun hp hw => ?_⟩
  · intro m e s1 hs hb he left
    obtain ⟨b, rfl⟩ := State.effective_withStop hs he
    obtain ⟨p, c, hl⟩ := pokeAll_eq left.writes { s.withStop b with regs := left.regs, cc := left.cc }
    have hx : exec (.jwcs m) s = .next (State.pokeAll left.writes { s.withStop b with regs := left.regs, cc := left.cc }) := by
      show execJwcs m s = _
      rw [execJwcs, if_neg hb, he, Res.finish_ok, State.runWcs, extract_eq_ofNat, Nat.pow_zero, Nat.div_one]
    exact ⟨_, hx.trans (congrArg _ hl), rfl, rfl, rfl, rfl, rfl, rfl, rfl⟩
  · show execJwcs m s = _
    rw [execJwcs, if_pos hb, wcsError_eq]
  · have h : s.wcsPresent (s.reg d) = false := decide_eq_false (Nat.not_lt.2 hw)
    show execWwcs sr d s = _
    rw [execWwcs, privileged_yes hp, if_neg (by rw [h]; decide), wcsAbsent_eq]
  · have h : s.wcsPresent (s.reg sr) = false := decide_eq_false (Nat.not_lt.2 hw)
    show execRwcs sr d s = _
    rw [execRwcs, privileged_yes hp, if_neg (by rw [h]; decide), wcsAbsent_eq]

end Sys2Proof
end

section
/-! PROOFS. What the storing instructions leave of memory (20_memory.md section 2). -/

namespace Sys2Proof
namespace Machine

/-! ## From completion to the frame -/

section
variable {s t u : State} {i : Instr} {o : Outcome}

theorem mem_of_isNext (h : o.IsNext u) (ht : o = .next t) : t.mem = u.mem := by
  obtain ⟨b, e⟩ := h
  cases e.symm.trans ht
  rfl

theorem mem_of_completes (h : Completes i s u) (ht : exec i s = .next t) : t.mem = u.mem := mem_of_isNext h ht

theorem not_raises {x : Trap} (ha : t.abandoned = false) (h : o.Raises x u) (ht : o = .next t) : False := by
  obtain ⟨b, e⟩ := h
  exact Bool.false_ne_true (ha.symm.trans (abandoned_raise (e.symm.trans ht)))

theorem sameBytesOutside_of_mem {a : Addr} {n : Nat} (h : t.mem = u.mem) (hu : SameBytesOutside s u a n) : SameBytesOutside s t a n := by
  intro x hx
  rw [h]
  exact hu x hx

/-- The frame of an instruction whose next state has the memory of `v`. -/
theorem IsNext.outside {v : State} {a : Addr} {n : Nat} (h : o.IsNext u) (ht : o = .next t) (hu : u.mem = v.mem)
    (hv : SameBytesOutside s v a n) : SameBytesOutside s t a n :=
  sameBytesOutside_of_mem ((mem_of_isNext h ht).trans hu) hv

/-- Outside two words, nothing changed. -/
def SameOutsideWords (s t : State) (ph pl : Addr) : Prop :=
  ∀ x : Addr, (∀ k, k < 4 → x ≠ ph + BitVec.ofNat 24 k) → (∀ k, k < 4 → x ≠ pl + BitVec.ofNat 24 k) →
    Memory.read t.mem x.toNat = Memory.read s.mem x.toNat

theorem sameOutsideWords_poke32 (hm : Memory.wf s.mem = true) (ph pl : Addr) (hi lo : Word) (h : t.mem = ((s.poke32 pl lo).poke32 ph hi).mem) :
    SameOutsideWords s t ph pl := fun x hh hl => by
  rw [h, sameBytesOutside_poke32 (State.poke32_wf hm) ph hi x hh, sameBytesOutside_poke32 hm pl lo x hl]

/-- An operand that can be written can be read there as well, or its read is a trap. -/
theorem modifies_or_fault {a pa : Addr} {n : Nat} (h : s.locate .write a n = .ok pa) :
    s.Modifies a n pa ∨ ∃ x, s.locate .read a n = .error x := by
  cases hr : s.locate .read a n with
  | error x => exact .inr ⟨x, rfl⟩
  | ok pa' =>
    refine .inl ⟨?_, h⟩
    have tr (k : Access) {q : Addr} (hk : s.locate k a n = .ok q) : s.translate a = some q := by
      unfold State.locate at hk
      split at hk
      · cases hk
      · split at hk
        · cases hk
        · split at hk
          · cases hk
          · split at hk <;> cases hk
            assumption
    rw [hr, Option.some.inj ((tr _ hr).symm.trans (tr _ h))]

end

section
variable {s t : State} {i : Instr} {w : Word} (hm : Memory.wf s.mem = true) (ht : exec i s = .next t)
include hm ht

/-- The frame of an instruction that stores one value, or one pair. -/
theorem stores_frame {vb : Byte} {vh : Half} {vw hi lo : Word}
    (h : s.OnWrite w (fun pa => Completes i s (s.poke8 pa vb)) (fun pa => Completes i s (s.poke16 pa vh))
      (fun pa => Completes i s (s.poke32 pa vw)) fun ph pl => Completes i s ((s.poke32 pl lo).poke32 ph hi)) :
    s.OnWrite w (fun pa => SameBytesOutside s t pa 1) (fun pa => SameBytesOutside s t pa 2) (fun pa => SameBytesOutside s t pa 4)
      (SameOutsideWords s t) := by
  intro hs e s1 he
  have key := h hs e s1 he
  split at key
  · exact fun pa hp => sameBytesOutside_of_mem (mem_of_completes (key pa hp) ht) (sameBytesOutside_poke8 hm pa vb)
  · exact fun pa hp => sameBytesOutside_of_mem (mem_of_completes (key pa hp) ht) (sameBytesOutside_poke16 hm pa vh)
  · exact fun pa hp => sameBytesOutside_of_mem (mem_of_completes (key pa hp) ht) (sameBytesOutside_poke32 hm pa vw)
  · exact fun ph pl hh hl => sameOutsideWords_poke32 hm ph pl hi lo (mem_of_completes (key ph pl hh hl) ht)

variable (ha : t.abandoned = false)
include ha

/-- The frame of an addition to memory that does not trap. -/
theorem addReg_frame {r : Reg} (hx : exec i s = withOperand w (addRegMembers r) s) :
    s.OnWrite w (fun pa => SameBytesOutside s t pa 1) (fun pa => SameBytesOutside s t pa 2) (fun pa => SameBytesOutside s t pa 4)
      (SameOutsideWords s t) := by
  intro hs e s1 he
  obtain ⟨b, rfl⟩ := State.effective_withStop hs he
  rw [withOperand, he, Res.finish_ok, ht] at hx
  split
  · rename_i a ho
    rw [ho] at hx
    intro pa hp
    rcases modifies_or_fault hp with h | ⟨x, h⟩
    · exact IsNext.outside (isNext_addRegToByte b hs h) hx.symm rfl (sameBytesOutside_poke8 hm pa _)
    · exact (not_raises ha (raises_addRegToByte b hs (.inl h)) hx.symm).elim
  · rename_i a ho
    rw [ho] at hx
    intro pa hp
    rcases modifies_or_fault hp with h | ⟨x, h⟩
    · exact IsNext.outside (isNext_addRegToHalf b hs h) hx.symm rfl (sameBytesOutside_poke16 hm pa _)
    · exact (not_raises ha (raises_addRegToHalf b hs (.inl h)) hx.symm).elim
  · rename_i a ho
    rw [ho] at hx
    intro pa hp
    rcases modifies_or_fault hp with h | ⟨x, h⟩
    · exact IsNext.outside (v := s.poke32 pa (s.reg r + Memory.read32 s.mem pa)) (isNext_addRegToWord b hs h) hx.symm rfl (sameBytesOutside_poke32 hm pa _)
    · exact (not_raises ha (raises_addRegToWord b hs (.inl h)) hx.symm).elim
  · rename_i a ho
    rw [ho] at hx
    intro ph pl hh hl
    rcases modifies_or_fault hl with hlo | ⟨x, hlo⟩
    · rcases modifies_or_fault hh with hhi | ⟨x, hhi⟩
      · exact sameOutsideWords_poke32 hm ph pl
          ((s.regPair r + (Memory.read32 s.mem ph ++ Memory.read32 s.mem pl)).extractLsb' 32 32)
          ((s.regPair r + (Memory.read32 s.mem ph ++ Memory.read32 s.mem pl)).extractLsb' 0 32)
          ((mem_of_isNext (isNext_addRegToDouble b hs hhi hlo rfl rfl) hx.symm).trans rfl)
      · exact (not_raises ha (raises_addRegToDouble b hs (.inr (.inl ⟨⟨pl, hlo.1⟩, hhi⟩))) hx.symm).elim
    · exact (not_raises ha (raises_addRegToDouble b hs (.inl hlo)) hx.symm).elim

end

/-! ## Register files -/

theorem filePokes_wf {s : State} (hm : Memory.wf s.mem = true) (m n : Nat) (p : Nat → Addr) : Memory.wf (s.filePokes m n p).mem = true := by
  induction n with
  | zero => exact hm
  | succ n ih =>
    rw [State.filePokes, List.range_succ, List.foldl_append]
    exact State.poke32_wf ih

theorem read_filePokes {s : State} (hm : Memory.wf s.mem = true) (m : Nat) (p : Nat → Addr) (x : Addr) : ∀ n,
    (∀ k j, k < n → j < 4 → x ≠ p k + BitVec.ofNat 24 j) → Memory.read (s.filePokes m n p).mem x.toNat = Memory.read s.mem x.toNat
  | 0, _ => rfl
  | n + 1, h => by
    have last : s.filePokes m (n + 1) p = (s.filePokes m n p).poke32 (p n) (s.reg (BitVec.ofNat 3 (m + n))) := by
      rw [State.filePokes, List.range_succ, List.foldl_append]
      rfl
    rw [last, sameBytesOutside_poke32 (filePokes_wf hm m n p) (p n) _ x fun j hj => h n j (Nat.lt_succ_self n) hj]
    exact read_filePokes hm m p x n fun k j hk hj => h k j (by omega) hj

end Machine
open Machine

/-- Settles O17: each instruction by what it completes with; the read of an addition can still be a trap. -/
theorem storeFrame : Obligations.StoreFrame := by
  intro s t hinv hs ha outside frame
  have hm := hinv.1
  have store (i : Instr) (w v hi lo : Word) (h : s.OnWrite w (fun pa => Completes i s (s.poke8 pa (BitVec.ofNat 8 v.toNat)))
      (fun pa => Completes i s (s.poke16 pa (BitVec.ofNat 16 v.toNat))) (fun pa => Completes i s (s.poke32 pa v))
      (fun ph pl => Completes i s ((s.poke32 pl lo).poke32 ph hi)) ∧ s.OnWriteFault i w lo) : frame i w :=
    fun ht => stores_frame hm ht h.1
  have add (i : Instr) (w : Word) (r : Reg) (hx : exec i s = withOperand w (addRegMembers r) s) : frame i w :=
    fun ht => addReg_frame hm ht ha hx
  refine ⟨fun r m => ?_, fun r m => ?_, fun r m => ?_, fun r m => ?_, ?_, ?_, ?_⟩
  · obtain ⟨stb, -, -, -, stmb, -, -, -, zmb, -⟩ := storesComplete s r
    exact ⟨store _ _ _ _ _ (stb m), store _ _ _ _ _ (stmb m), store _ _ _ _ _ (zmb m), add _ _ r rfl⟩
  · obtain ⟨-, sth, -, -, -, stmh, -, -, -, zmh, -⟩ := storesComplete s r
    exact ⟨store _ _ _ _ _ (sth m), store _ _ _ _ _ (stmh m), store _ _ _ _ _ (zmh m), add _ _ r rfl⟩
  · obtain ⟨-, -, stw, -, -, -, stmw, -, -, -, zmw, -⟩ := storesComplete s r
    exact ⟨store _ _ _ _ _ (stw m), store _ _ _ _ _ (stmw m), store _ _ _ _ _ (zmw m), add _ _ r rfl⟩
  · obtain ⟨-, -, -, std, -, -, -, stmd, -, -, -, zmd⟩ := storesComplete s r
    exact ⟨store _ _ _ _ _ (std m), store _ _ _ _ _ (stmd m), store _ _ _ _ _ (zmd m), add _ _ r rfl⟩
  · intro r m e s1 p he hp ht x hx
    rw [mem_of_completes ((registerFilesComplete s r m e s1 hs he).2 p hp) ht]
    exact read_filePokes hm r.toNat p x (8 - r.toNat) hx
  · intro c m e s1 pa he
    obtain ⟨-, complete, -⟩ := bitInstructionsComplete s c
    obtain ⟨-, -, faults, refused⟩ := complete m e s1 hs he
    have formed (i : Instr) (hi : i = .sbm c m ∨ i = .zbm c m ∨ i = .abm c m ∨ i = .tbm c m) (ht : exec i s = .next t) : e.ef = true := by
      by_contra hf
      exact not_raises (u := s1) ha ⟨s1.stopHit, refused (Bool.eq_false_iff.2 hf) i hi⟩ ht
    refine ⟨fun ht hp => ?_, fun ht hp => ?_⟩
    · rcases ht with ht | ht
      · have hf := formed _ (.inl rfl) ht
        rcases modifies_or_fault hp with h | ⟨x, h⟩
        · exact IsNext.outside (completes_sbm hs he hf h) ht rfl (sameBytesOutside_poke8 hm pa _)
        · exact (not_raises ha ((faults hf x).2.1 (.inl h)).1 ht).elim
      · have hf := formed _ (.inr (.inl rfl)) ht
        rcases modifies_or_fault hp with h | ⟨x, h⟩
        · exact IsNext.outside (completes_zbm hs he hf h) ht rfl (sameBytesOutside_poke8 hm pa _)
        · exact (not_raises ha ((faults hf x).2.1 (.inl h)).2 ht).elim
    · have hf := formed _ (.inr (.inr (.inl rfl))) ht
      rcases modifies_or_fault hp with h | ⟨x, h⟩
      · exact IsNext.outside (v := s.poke32 pa (Memory.read32 s.mem pa + wordBit (bitPosition e.ea c)))
          (completes_abm hs he hf h rfl) ht rfl (sameBytesOutside_poke32 hm pa _)
      · exact (not_raises ha ((faults hf x).2.2 (.inl h)) ht).elim
  · intro sr d ph pl ht hh hl
    obtain ⟨-, completes, -, -, -, -, refused⟩ := wcsInstructionsComplete s sr d
    by_cases hp : s.priv = true
    · by_cases hw : (s.reg sr).toNat < s.cfg.wcsBoards.words
      · have key := mem_of_completes (completes hs hp hw ph pl hh hl) ht
        intro x hx hx'
        exact sameOutsideWords_poke32 hm pl ph ((Wcs.read s.wcs (s.reg sr).toNat).extractLsb' 0 32)
          ((Wcs.read s.wcs (s.reg sr).toNat).extractLsb' 32 32) key x hx' hx
      · exact (Bool.false_ne_true (ha.symm.trans (abandoned_raise ((refused hp (Nat.le_of_not_lt hw)).symm.trans ht)))).elim
    · have e : exec (.rwcs sr d) s = raise .privilege s := privileged_no (Bool.eq_false_iff.2 hp)
      exact (Bool.false_ne_true (ha.symm.trans (abandoned_raise (e.symm.trans ht)))).elim

end Sys2Proof
end

section
/-! PROOFS. Shifts and normalization (47_shift.md). -/

namespace Sys2Proof
namespace Machine

/-! ## The shift format -/

/-- A halfword of the shift format decodes by its op code and bit 9, bit 10 being ignored (30_encoding.md R145). -/
theorem decode_of_shift_format {bits : Half} {f : Reg → BitVec 5 → Instr}
    (hf : ∀ g : HalfFields, g.op = bits.extractLsb' 10 6 → g.shiftLeft = bits.getLsbD 6 →
      decodeHalfFields g = some (f g.d g.shiftCount)) (h : Half) (e : h &&& 0xFC40 = bits) :
    decode (.half h) = some (f (h.extractLsb' 7 3) (h.extractLsb' 0 5)) := by
  have op : (HalfFields.ofHalf h).op = bits.extractLsb' 10 6 := by
    rw [← e, BitVec.extractLsb'_and]
    exact BitVec.and_allOnes.symm
  have left : (HalfFields.ofHalf h).shiftLeft = bits.getLsbD 6 := by
    rw [← e, BitVec.getLsbD_and, HalfFields.shiftLeft]
    show (h.extractLsb' 4 3).getLsbD 2 = _
    simp
  have count : (HalfFields.ofHalf h).shiftCount = h.extractLsb' 0 5 := by
    show (h.extractLsb' 4 3).extractLsb' 0 1 ++ h.extractLsb' 0 4 = _
    rw [extract_extract h (by decide), ← extract_extract (j := 0) (m := 5) h (k := 4) (l := 1) (by decide),
      ← extract_extract (j := 0) (m := 5) h (k := 0) (l := 4) (by decide)]
    exact append_extract 4 (h.extractLsb' 0 5)
  rw [decode, hf _ op left, count]
  rfl

/-! ## Shifts as arithmetic -/

section
variable {n : Nat} (v : BitVec n)

theorem shiftLeft_eq_ofNat (k : Nat) : v <<< k = BitVec.ofNat n (v.toNat * 2 ^ k) := by
  apply BitVec.eq_of_toNat_eq
  rw [BitVec.toNat_shiftLeft, BitVec.toNat_ofNat, Nat.shiftLeft_eq]

theorem shiftRight_eq_ofNat (k : Nat) : v >>> k = BitVec.ofNat n (v.toNat / 2 ^ k) := by
  apply BitVec.eq_of_toNat_eq
  rw [BitVec.toNat_ushiftRight, BitVec.toNat_ofNat, Nat.shiftRight_eq_div_pow]
  exact (Nat.mod_eq_of_lt (Nat.lt_of_le_of_lt (Nat.div_le_self _ _) v.isLt)).symm

theorem sshiftRight_eq_ofInt (k : Nat) : v.sshiftRight k = BitVec.ofInt n (v.toInt / (2 ^ k : Nat)) := by
  rw [BitVec.sshiftRight_eq, Int.shiftRight_eq_div_pow]

theorem rotateLeft_eq_ofNat {k : Nat} (hk : k < n) :
    v.rotateLeft k = BitVec.ofNat n (v.toNat * 2 ^ k % 2 ^ n + v.toNat * 2 ^ k / 2 ^ n) := by
  have split : 2 ^ n = 2 ^ (n - k) * 2 ^ k := by rw [← Nat.pow_add, Nat.sub_add_cancel hk.le]
  have high : v.toNat * 2 ^ k / 2 ^ n = v.toNat / 2 ^ (n - k) := by
    rw [split, Nat.mul_div_mul_right _ _ (Nat.two_pow_pos k)]
  have low : v.toNat * 2 ^ k % 2 ^ n = (v.toNat % 2 ^ (n - k)) <<< k := by
    rw [split, Nat.mul_mod_mul_right, Nat.shiftLeft_eq]
  have small : v.toNat / 2 ^ (n - k) < 2 ^ k := by
    rw [Nat.div_lt_iff_lt_mul (Nat.two_pow_pos _), Nat.mul_comm, ← split]
    exact v.isLt
  have value : (v.rotateLeft k).toNat = v.toNat * 2 ^ k % 2 ^ n + v.toNat * 2 ^ k / 2 ^ n := by
    rw [BitVec.toNat_rotateLeft, Nat.mod_eq_of_lt hk, Nat.shiftRight_eq_div_pow, Nat.shiftLeft_eq, high, low,
      Nat.shiftLeft_add_eq_or_of_lt small]
  rw [← value, BitVec.ofNat_toNat, BitVec.setWidth_eq]

theorem rotateRight_eq_ofNat {k : Nat} (hk : k < n) :
    v.rotateRight k = BitVec.ofNat n (v.toNat / 2 ^ k + v.toNat % 2 ^ k * (2 ^ n / 2 ^ k)) := by
  have split : 2 ^ n = 2 ^ k * 2 ^ (n - k) := by rw [← Nat.pow_add, Nat.add_sub_cancel' hk.le]
  have unit : 2 ^ n / 2 ^ k = 2 ^ (n - k) := by rw [split, Nat.mul_div_cancel_left _ (Nat.two_pow_pos k)]
  have low : v.toNat * 2 ^ (n - k) % 2 ^ n = (v.toNat % 2 ^ k) <<< (n - k) := by
    rw [split, Nat.mul_mod_mul_right, Nat.shiftLeft_eq]
  have small : v.toNat / 2 ^ k < 2 ^ (n - k) := by
    rw [Nat.div_lt_iff_lt_mul (Nat.two_pow_pos _), Nat.mul_comm, ← split]
    exact v.isLt
  have value : (v.rotateRight k).toNat = v.toNat / 2 ^ k + v.toNat % 2 ^ k * (2 ^ n / 2 ^ k) := by
    rw [BitVec.toNat_rotateRight, Nat.mod_eq_of_lt hk, Nat.shiftRight_eq_div_pow, Nat.shiftLeft_eq, low, unit,
      Nat.or_comm, ← Nat.shiftLeft_add_eq_or_of_lt small, Nat.add_comm, Nat.shiftLeft_eq]
  rw [← value, BitVec.ofNat_toNat, BitVec.setWidth_eq]

/-- A bit shifted out of position 1 differs from the sign just where the shifted value does not fit (47_shift.md
R374). -/
theorem shiftOverflow_eq {k : Nat} (hk : k < n) : shiftOverflow v k = outOfRange n (v.toInt * (2 ^ k : Nat)) := by
  have hK : (0 : Int) < (2 ^ k : Nat) := by exact_mod_cast Nat.two_pow_pos k
  have hP : (0 : Int) < (2 ^ (n - 1 - k) : Nat) := by exact_mod_cast Nat.two_pow_pos _
  have split : (2 : Int) ^ (n - 1) = (2 ^ (n - 1 - k) : Nat) * (2 ^ k : Nat) := by
    have : 2 ^ (n - 1) = 2 ^ (n - 1 - k) * 2 ^ k := by rw [← Nat.pow_add]; congr 1; omega
    exact_mod_cast this
  have hlo := BitVec.le_toInt v
  have hhi := BitVec.toInt_lt (x := v)
  rw [shiftOverflow, outOfRange, Bool.eq_iff_iff, Bool.or_eq_true, decide_eq_true_eq, decide_eq_true_eq, decide_eq_true_eq, ne_eq,
    ← BitVec.toInt_inj, BitVec.toInt_sshiftRight, BitVec.toInt_sshiftRight, Int.shiftRight_eq_div_pow, Int.shiftRight_eq_div_pow,
    show (((2 : Nat) ^ (n - 1) : Nat) : Int) = (2 : Int) ^ (n - 1) by push_cast; rfl]
  rw [split] at hlo hhi ⊢
  have upper : ((2 ^ (n - 1 - k) : Nat) : Int) * (2 ^ k : Nat) ≤ v.toInt * (2 ^ k : Nat) ↔ ((2 ^ (n - 1 - k) : Nat) : Int) ≤ v.toInt :=
    Int.mul_le_mul_right hK
  have lower : v.toInt * (2 ^ k : Nat) < -(((2 ^ (n - 1 - k) : Nat) : Int) * (2 ^ k : Nat)) ↔ v.toInt < -((2 ^ (n - 1 - k) : Nat) : Int) := by
    rw [← Int.neg_mul]
    exact Int.mul_lt_mul_right hK
  rw [upper, lower]
  by_cases sign : 0 ≤ v.toInt
  · rw [Int.ediv_eq_zero_of_lt sign hhi]
    constructor
    · intro ne
      by_contra none
      exact ne (Int.ediv_eq_zero_of_lt sign (by omega))
    · rintro (neg | big) zero
      · omega
      · exact absurd ((Int.le_ediv_iff_mul_le hP).2 (by omega : (1 : Int) * _ ≤ v.toInt)) (by omega)
  · have minus : ∀ q : Int, 0 < q → -q ≤ v.toInt → v.toInt / q = -1 := fun q hq hle => by
      have h1 := (Int.le_ediv_iff_mul_le (a := -1) hq).2 (by omega : -1 * q ≤ v.toInt)
      have h2 := Int.ediv_neg_of_neg_of_pos (by omega : v.toInt < 0) hq
      omega
    rw [minus _ (Int.mul_pos hP hK) hlo]
    constructor
    · intro ne
      by_contra none
      exact ne (minus _ hP (by omega))
    · rintro (neg | big) eq
      · have := (Int.le_ediv_iff_mul_le (a := -1) (b := v.toInt) hP).1 (by omega)
        omega
      · omega

end

/-- A left arithmetic shift keeps the sign (47_shift.md R374, R377). -/
theorem signed_shiftLeft_eq {m : Nat} (v : BitVec (1 + m)) (k : Nat) :
    BitVec.ofBool (v.getLsbD m) ++ v.extractLsb' 0 m <<< k =
      BitVec.ofNat (1 + m) (v.toNat / 2 ^ m * 2 ^ m + v.toNat * 2 ^ k % 2 ^ m) := by
  have hlt : v.toNat / 2 ^ m < 2 := by
    rw [Nat.div_lt_iff_lt_mul (Nat.two_pow_pos m)]
    have := v.isLt
    rw [Nat.pow_add] at this
    omega
  have value : (BitVec.ofBool (v.getLsbD m) ++ v.extractLsb' 0 m <<< k).toNat =
      v.toNat / 2 ^ m * 2 ^ m + v.toNat * 2 ^ k % 2 ^ m := by
    rw [append_toNat, BitVec.toNat_shiftLeft, extract_toNat, Nat.pow_zero, Nat.div_one, Nat.shiftLeft_eq, Nat.mod_mul_mod,
      getLsbD_eq_decide]
    congr 2
    rcases Nat.lt_succ_iff_lt_or_eq.1 hlt with h | h
    · rw [Nat.lt_one_iff.1 h]; rfl
    · rw [h]; rfl
  rw [← value, BitVec.ofNat_toNat, BitVec.setWidth_eq]

theorem shiftArith_eq (s : State) (ae : Bool) : s.shiftArith ae = s.afterArith ae (if ae then 8 else 0) := by
  cases ae <;> rfl

theorem setRegPair_eq (s : State) (r : Reg) (x : Double) :
    s.setRegPair r x = (s.setReg (r &&& 6) (x.extractLsb' 32 32)).setReg (r ||| 1) (x.extractLsb' 0 32) :=
  rfl

section
variable (s : State) (r : Reg) (n : BitVec 5)

theorem execSla_eq : execSla r n s = .next ((s.setReg r (BitVec.ofNat 32 ((s.reg r).toNat / 2 ^ 31 * 2 ^ 31 +
    (s.reg r).toNat * 2 ^ n.toNat % 2 ^ 31))).afterArith (outOfRange 32 ((s.reg r).toInt * (2 ^ n.toNat : Nat)))
      (if outOfRange 32 ((s.reg r).toInt * (2 ^ n.toNat : Nat)) then 8 else 0)) := by
  rw [execSla, shiftArith_eq, shiftOverflow_eq _ n.isLt, shiftLeftArith, signed_shiftLeft_eq (m := 31) (s.reg r)]

theorem execSlad_eq : execSlad r n s = .next ((s.setRegPair r (BitVec.ofNat 64 ((s.regPair r).toNat / 2 ^ 63 * 2 ^ 63 +
    (s.regPair r).toNat * 2 ^ n.toNat % 2 ^ 63))).afterArith (outOfRange 64 ((s.regPair r).toInt * (2 ^ n.toNat : Nat)))
      (if outOfRange 64 ((s.regPair r).toInt * (2 ^ n.toNat : Nat)) then 8 else 0)) := by
  rw [execSlad, shiftArith_eq, shiftOverflow_eq _ (Nat.lt_trans n.isLt (by decide)), shiftLeftArithDouble,
    signed_shiftLeft_eq (m := 63) (s.regPair r)]

theorem execSlc_eq : execSlc r n s = .next (s.setReg r (BitVec.ofNat 32
    ((s.reg r).toNat * 2 ^ n.toNat % 2 ^ 32 + (s.reg r).toNat * 2 ^ n.toNat / 2 ^ 32))) := by
  rw [execSlc, rotateLeft_eq_ofNat _ n.isLt]

theorem execSrc_eq : execSrc r n s = .next (s.setReg r (BitVec.ofNat 32
    ((s.reg r).toNat / 2 ^ n.toNat + (s.reg r).toNat % 2 ^ n.toNat * (2 ^ 32 / 2 ^ n.toNat)))) := by
  rw [execSrc, rotateRight_eq_ofNat _ n.isLt]

end

/-- The left member of a shift pair. -/
theorem decodes_left {bits : Half} {f g : Reg → BitVec 5 → Instr} (left : bits.getLsbD 6 = true)
    (hf : ∀ h : HalfFields, h.op = bits.extractLsb' 10 6 →
      decodeHalfFields h = if h.shiftLeft then some (f h.d h.shiftCount) else some (g h.d h.shiftCount)) (h : Half)
    (e : h &&& 0xFC40 = bits) : decode (.half h) = some (f (h.extractLsb' 7 3) (h.extractLsb' 0 5)) :=
  decode_of_shift_format (fun k op bit => by rw [hf k op, bit, left, if_pos rfl]) h e

/-- The right member of a shift pair. -/
theorem decodes_right {bits : Half} {f g : Reg → BitVec 5 → Instr} (right : bits.getLsbD 6 = false)
    (hf : ∀ h : HalfFields, h.op = bits.extractLsb' 10 6 →
      decodeHalfFields h = if h.shiftLeft then some (f h.d h.shiftCount) else some (g h.d h.shiftCount)) (h : Half)
    (e : h &&& 0xFC40 = bits) : decode (.half h) = some (g (h.extractLsb' 7 3) (h.extractLsb' 0 5)) :=
  decode_of_shift_format (fun k op bit => by rw [hf k op, bit, right, if_neg Bool.false_ne_true]) h e

/-! ## Normalization -/

theorem two_pow_eq_mul_32 {n : Nat} (hn : 5 ≤ n) : 2 ^ n = 2 ^ (n - 5) * 32 := by
  rw [show 32 = 2 ^ 5 from rfl, ← Nat.pow_add, Nat.sub_add_cancel hn]

/-- Five equal leading bits: the number lies within a 32nd of the range. -/
theorem leadingEqual_iff {n : Nat} (hn : 5 ≤ n) (v : BitVec n) :
    leadingEqual v = true ↔ v.toNat / 2 ^ (n - 5) = 0 ∨ v.toNat / 2 ^ (n - 5) = 31 := by
  have small : v.toNat / 2 ^ (n - 5) % 2 ^ 5 = v.toNat / 2 ^ (n - 5) := by
    apply Nat.mod_eq_of_lt
    rw [Nat.div_lt_iff_lt_mul (Nat.two_pow_pos _), ← Nat.pow_add, Nat.add_sub_cancel' hn]
    exact v.isLt
  rw [leadingEqual, Bool.or_eq_true, decide_eq_true_eq, decide_eq_true_eq, BitVec.toNat_eq, BitVec.toNat_eq, extract_toNat, small]
  rfl

theorem leadingEqual_iff_toInt {n : Nat} (hn : 5 ≤ n) (v : BitVec n) :
    leadingEqual v = true ↔ -(2 ^ (n - 5) : Nat) ≤ v.toInt ∧ v.toInt < (2 ^ (n - 5) : Nat) := by
  have hP := Nat.two_pow_pos (n - 5)
  have size := two_pow_eq_mul_32 hn
  have hv := v.isLt
  rw [leadingEqual_iff hn, BitVec.toInt_eq_toNat_cond, Nat.div_eq_iff hP, Nat.div_eq_iff hP]
  rw [size] at hv ⊢
  generalize 2 ^ (n - 5) = p at *
  split <;> omega

/-- A number with five equal leading bits keeps its value times 16 in a shift by one digit. -/
theorem toInt_shiftLeft_four {n : Nat} (hn : 5 ≤ n) {v : BitVec n} (h : leadingEqual v = true) :
    (v <<< 4).toInt = v.toInt * 16 := by
  obtain ⟨lo, hi⟩ := (leadingEqual_iff_toInt hn v).1 h
  have size := two_pow_eq_mul_32 hn
  have same : v <<< 4 = BitVec.ofInt n (v.toInt * 16) := by
    rw [BitVec.ofInt_mul, BitVec.ofInt_toInt, BitVec.shiftLeft_eq_mul_twoPow, BitVec.twoPow_eq, shiftLeft_eq_ofNat]
    apply BitVec.eq_of_toNat_eq
    rw [BitVec.toNat_mul, BitVec.toNat_mul]
    congr 2
    rw [show (16 : Int) = ((16 : Nat) : Int) from rfl, BitVec.ofInt_natCast, BitVec.toNat_ofNat, BitVec.toNat_ofNat,
      BitVec.toNat_ofNat, Nat.mod_mul_mod]
    rfl
  rw [same, BitVec.toInt_ofInt, size]
  generalize 2 ^ (n - 5) = p at *
  apply Int.bmod_eq_of_le <;> omega

/-- Where normalization stops: after `k` digits, the number times `16 ^ k`, its five leading bits not equal, though
they were before the last digit. -/
theorem normalizeDigits_spec {n : Nat} (hn : 5 ≤ n) (f : Nat) : ∀ (v : BitVec n) (j : Nat),
    2 ^ (n - 4) ≤ v.toInt.natAbs * 16 ^ f → ∃ k x, k ≤ f ∧ normalizeDigits (f + 1) v j = (x, j + k) ∧
      x.toInt = v.toInt * 16 ^ k ∧ leadingEqual x = false ∧ (k ≠ 0 → leadingEqual (v <<< (4 * (k - 1))) = true) := by
  have double : 2 ^ (n - 4) = 2 ^ (n - 5) * 2 := by rw [← Nat.pow_add_one]; congr 1; omega
  induction f with
  | zero =>
    intro v j h
    have stop : leadingEqual v = false := by
      rw [Bool.eq_false_iff, ne_eq, leadingEqual_iff_toInt hn]
      have := Nat.two_pow_pos (n - 5)
      omega
    exact ⟨0, v, le_refl _, by rw [normalizeDigits, stop]; rfl, by rw [Int.pow_zero, Int.mul_one], stop, fun h => absurd rfl h⟩
  | succ f ih =>
    intro v j h
    cases eq : leadingEqual v with
    | false => exact ⟨0, v, Nat.zero_le _, by rw [normalizeDigits, eq]; rfl, by rw [Int.pow_zero, Int.mul_one], eq, fun h => absurd rfl h⟩
    | true =>
      have times := toInt_shiftLeft_four hn eq
      obtain ⟨k, x, le, run, value, stop, last⟩ := ih (v <<< 4) (j + 1) (by
        rw [times, Int.natAbs_mul, Nat.mul_assoc, show Int.natAbs 16 = 16 from rfl, ← Nat.pow_succ']
        exact h)
      refine ⟨k + 1, x, by omega, ?_, ?_, stop, fun _ => ?_⟩
      · rw [normalizeDigits, eq, if_pos rfl, run]
        congr 1
        omega
      · rw [value, times, Int.mul_assoc, ← Int.pow_succ']
      · cases k with
        | zero => exact (BitVec.shiftLeft_zero v).symm ▸ eq
        | succ m =>
          have := last (Nat.succ_ne_zero m)
          rw [← BitVec.shiftLeft_add] at this
          rwa [show 4 * (m + 1 + 1 - 1) = 4 + 4 * (m + 1 - 1) by omega]

/-- NOR and NORD on a number that is not zero (47_shift.md R371). -/
theorem normalized_spec {n f : Nat} (hn : 5 ≤ n) (hf : n / 4 = f + 1) (hp : n - 4 = 4 * f) (v : BitVec n)
    (hv : v ≠ 0) :
    ∃ k x, k ≤ f ∧ (x : BitVec n).toInt = v.toInt * 16 ^ k ∧ x.toNat / 2 ^ (n - 5) ≠ 0 ∧ x.toNat / 2 ^ (n - 5) ≠ 31 ∧
      (k ≠ 0 → v.toNat * 16 ^ (k - 1) % 2 ^ n / 2 ^ (n - 5) = 0 ∨ v.toNat * 16 ^ (k - 1) % 2 ^ n / 2 ^ (n - 5) = 31) ∧
      normalized v = (x, BitVec.ofNat 32 (0x40 - k)) := by
  have some_ : 1 ≤ v.toInt.natAbs := by
    rw [Nat.one_le_iff_ne_zero, ne_eq, Int.natAbs_eq_zero, ← BitVec.toInt_zero (w := n), BitVec.toInt_inj]
    exact hv
  obtain ⟨k, x, le, run, value, stop, last⟩ := normalizeDigits_spec hn f v 0 (by
    rw [hp, Nat.pow_mul]
    exact Nat.le_mul_of_pos_left _ some_)
  have stop' := (not_congr (leadingEqual_iff hn x)).1 (by rw [stop]; exact Bool.false_ne_true)
  refine ⟨k, x, le, value, fun h => stop' (.inl h), fun h => stop' (.inr h), fun h => ?_, ?_⟩
  · have := (leadingEqual_iff hn _).1 (last h)
    rwa [BitVec.toNat_shiftLeft, Nat.shiftLeft_eq, Nat.pow_mul] at this
  · rw [normalized, if_neg hv, hf, run]
    dsimp only
    rw [zeroExtend_eq_ofNat, BitVec.toNat_ofNat, Nat.zero_add, Nat.mod_eq_of_lt (by omega)]

/-- The leading zeros of a number of `k` bits. -/
theorem leadingZeros_spec (v : Word) : ∀ k, v.toNat < 2 ^ k → v ≠ 0 →
    leadingZeros v k < k ∧ 2 ^ (k - 1 - leadingZeros v k) ≤ v.toNat ∧ v.toNat < 2 ^ (k - leadingZeros v k) := by
  intro k
  induction k with
  | zero =>
    intro h hv
    exact absurd (BitVec.eq_of_toNat_eq (Nat.lt_one_iff.1 h)) hv
  | succ k ih =>
    intro h hv
    have top : v.getLsbD k = true ↔ 2 ^ k ≤ v.toNat := by
      rw [getLsbD_eq_decide, decide_eq_true_eq, ← Nat.one_le_div_iff (Nat.two_pow_pos k)]
      have : v.toNat / 2 ^ k < 2 := by rw [Nat.div_lt_iff_lt_mul (Nat.two_pow_pos k), ← Nat.pow_add_one']; exact h
      generalize v.toNat / 2 ^ k = q at *
      omega
    by_cases bit : 2 ^ k ≤ v.toNat
    · rw [leadingZeros, if_pos (top.2 bit)]
      exact ⟨Nat.succ_pos k, bit, h⟩
    · obtain ⟨lt, lo, hi⟩ := ih (by omega) hv
      rw [leadingZeros, if_neg (mt top.1 bit)]
      exact ⟨by omega, by rwa [show k + 1 - 1 - (leadingZeros v k + 1) = k - 1 - leadingZeros v k by omega],
        by rwa [Nat.add_sub_add_right]⟩

end Machine

open Machine

/-- Settles O40: each shift is its arithmetic, and a bit shifted out of position 1 is one that does not fit. -/
theorem shiftsComplete : Obligations.ShiftsComplete := by
  intro s r n v w k toPair flags codes
  have pair (x : Double) : s.setRegPair r x = toPair x := setRegPair_eq s r x
  refine ⟨⟨?_, ?_, ?_, ?_, ?_, ?_, ?_, ?_, ?_, ?_⟩, ?_, ?_, ?_, execSlc_eq s r n, execSrc_eq s r n, ?_, ?_, ?_, execSla_eq s r n, ?_⟩
  · exact decodes_left rfl fun _ op => by rw [decodeHalfFields, op]; rfl
  · exact decodes_left rfl fun _ op => by rw [decodeHalfFields, op]; rfl
  · exact decodes_left rfl fun _ op => by rw [decodeHalfFields, op]; rfl
  · exact decodes_left rfl fun _ op => by rw [decodeHalfFields, op]; rfl
  · exact decodes_left rfl fun _ op => by rw [decodeHalfFields, op]; rfl
  · exact decodes_right rfl fun _ op => by rw [decodeHalfFields, op]; rfl
  · exact decodes_right rfl fun _ op => by rw [decodeHalfFields, op]; rfl
  · exact decodes_right rfl fun _ op => by rw [decodeHalfFields, op]; rfl
  · exact decodes_right rfl fun _ op => by rw [decodeHalfFields, op]; rfl
  · exact decodes_right rfl fun _ op => by rw [decodeHalfFields, op]; rfl
  · show execSll r n s = _
    rw [execSll, shiftLeft_eq_ofNat]
  · show execSrl r n s = _
    rw [execSrl, shiftRight_eq_ofNat]
  · show execSra r n s = _
    rw [execSra, sshiftRight_eq_ofInt]
  · show execSlld r n s = _
    rw [execSlld, shiftLeft_eq_ofNat, pair]; rfl
  · show execSrld r n s = _
    rw [execSrld, shiftRight_eq_ofNat, pair]; rfl
  · show execSrad r n s = _
    rw [execSrad, sshiftRight_eq_ofInt, pair]; rfl
  · show execSlad r n s = _
    rw [execSlad_eq, pair]; rfl

/-- Settles O41: by where the shifting of digits stops, and by the leading zeros. -/
theorem normalizesComplete : Obligations.NormalizesComplete := by
  intro s sr d v w setPair codes
  refine ⟨⟨?_, ?_, ?_⟩, fun h => ?_, fun h => ?_, fun h => ?_, fun h => ?_, fun h => ?_, fun h => ?_⟩
  · intro h e
    rw [decode, HalfFields.ofHalf_of_masked e]; rfl
  · intro h e
    rw [decode, HalfFields.ofHalf_of_masked e]; rfl
  · intro h e
    rw [decode, HalfFields.ofHalf_of_masked e]; rfl
  · show execNor sr d s = _
    rw [execNor, normalized, if_pos h]
    show Host.Outcome.next ((s.setReg sr v).setReg d 0) = _
    rw [h]
  · obtain ⟨k, x, le, value, zero, ones, last, eq⟩ := normalized_spec (f := 7) (by decide) rfl rfl v h
    exact ⟨k, x, le, value, zero, ones, last, by show execNor sr d s = _; rw [execNor, eq]⟩
  · show execNord sr d s = _
    rw [execNord, show normalized (s.regPair sr) = _ from if_pos h, setRegPair_eq]
    show Host.Outcome.next ((setPair w).setReg d 0) = _
    rw [h]
  · obtain ⟨k, x, le, value, zero, ones, last, eq⟩ := normalized_spec (f := 15) (by decide) rfl rfl w h
    exact ⟨k, x, le, value, zero, ones, last, by
      show execNord sr d s = _
      rw [execNord, show normalized (s.regPair sr) = _ from eq, setRegPair_eq]⟩
  · show execScz sr d s = _
    rw [execScz, scanShift, scanCount, ccZero_eq, if_pos h, if_pos h, if_pos h]
    show Host.Outcome.next (((s.setReg sr v).setReg d 0).setCc 1) = _
    rw [h]
  · obtain ⟨lt, lo, hi⟩ := leadingZeros_spec v 32 v.isLt h
    refine ⟨leadingZeros v 32, by omega, lo, hi, ?_⟩
    show execScz sr d s = _
    rw [execScz, scanShift, scanCount, ccZero_eq, if_neg h, if_neg h, if_neg h, shiftLeft_eq_ofNat]

end Sys2Proof
end

section
/-! PROOFS. The map walk, LMAP, and the PSD loads (20_memory.md R102; 42_memory_management.md; 51_control.md). -/

namespace Sys2Proof
namespace Machine

/-! ## The map made of page entries -/

theorem mapOf_getElem (pages : List Half) (j : Nat) (h : j < 32) : (mapOf pages)[j] = pages.getD j 0 := by
  simp only [mapOf, Vector.getElem_ofFn]

theorem mapOf_nil : mapOf [] = Vector.replicate 32 0 := by
  apply Vector.ext
  intro j h
  rw [mapOf_getElem, Vector.getElem_replicate]
  rfl

/-- One more page entry goes to the next map register. -/
theorem mapOf_push {pages : List Half} (h : pages.length < 32) (v : Half) :
    (mapOf pages).set pages.length v = mapOf (pages ++ [v]) := by
  apply Vector.ext
  intro j hj
  rw [Vector.getElem_set, mapOf_getElem, mapOf_getElem, List.getD_eq_getElem?_getD, List.getD_eq_getElem?_getD]
  by_cases eq : pages.length = j
  · subst eq
    rw [if_pos rfl, List.getElem?_concat_length]
    rfl
  · rw [if_neg eq]
    rcases Nat.lt_or_gt_of_ne eq with lt | gt
    · rw [List.getElem?_eq_none (by omega), List.getElem?_eq_none (by simp; omega)]
    · rw [List.getElem?_append_left gt]

/-- Entries beyond the 32 map registers are not in the map. -/
theorem mapOf_append_full {pages : List Half} (h : 32 ≤ pages.length) (more : List Half) : mapOf (pages ++ more) = mapOf pages := by
  apply Vector.ext
  intro j hj
  rw [mapOf_getElem, mapOf_getElem, List.getD_eq_getElem?_getD, List.getD_eq_getElem?_getD, List.getElem?_append_left (by omega)]

/-! ## The walk, no bus agent writing -/

/-- The walk has loaded `pages`, or as many of them as the map holds. -/
structure MapLoad.Loaded (s : State) (pages : List Half) (m : MapLoad) : Prop where
  state : m.state = s
  map : m.map = mapOf pages
  error : m.error = if pages.length ≤ 32 then none else some .overflow
  next : pages.length ≤ 32 → m.next = pages.length

/-- The walk has met the memory error `e` after `pages`. -/
structure MapLoad.Failed (s : State) (e : MemError) (pages : List Half) (m : MapLoad) : Prop where
  state : m.state = s
  map : m.map = mapOf pages
  error : m.error = some (.memory e)

theorem addr_succ (a : Addr) (c k : Nat) : a + BitVec.ofNat 24 (c * (k + 1)) = a + BitVec.ofNat 24 c + BitVec.ofNat 24 (c * k) := by
  rw [Nat.mul_succ, Nat.add_comm, BitVec.ofNat_add, BitVec.add_assoc]

section
variable {s : State} {pages : List Half} {m : MapLoad}

theorem MapLoad.Loaded.hit (h : m.Loaded s pages) (b : Bool) : MapLoad.Loaded s pages { m with hit := b } :=
  ⟨h.state, h.map, h.error, h.next⟩

/-- A full map that more entries follow. -/
theorem MapLoad.Loaded.overflow (h : m.Loaded s pages) (full : 32 < pages.length) (more : List Half) : m.Loaded s (pages ++ more) := by
  have long : ¬(pages ++ more).length ≤ 32 := by rw [List.length_append]; omega
  exact ⟨h.state, h.map.trans (mapOf_append_full full.le more).symm, by rw [h.error, if_neg (by omega), if_neg long],
    fun le => absurd le long⟩

theorem MapLoad.Loaded.transact (hs : s.Alone) (h : m.Loaded s pages) : m.state.transact = s := by
  rw [h.state]
  exact State.transact_of_bus hs

/-- What a read of the lists leaves of the walk. -/
theorem MapLoad.Loaded.advance (hs : s.Alone) (h : m.Loaded s pages) (a : Addr) : (m.advance a m.state.transact).Loaded s pages :=
  ⟨h.transact hs, h.map, h.error, h.next⟩

theorem MapLoad.Loaded.fails (h : m.Loaded s pages) (e : MemError) : (m.stop (.memory e) s).Failed s e pages :=
  ⟨rfl, h.map, rfl⟩

/-- One page entry. -/
theorem loadPages_succ (hs : s.Alone) (h : m.Loaded s pages) (lt : pages.length < 32) {a : Addr} {v : Half}
    (hv : s.realRead16 a = .ok v) :
    ∃ m', MapLoad.Loaded s (pages ++ [v]) m' ∧ ∀ n, loadPages (n + 1) a m = loadPages n (a + 2) m' := by
  have room : m.next < 32 := by rw [h.next lt.le]; exact lt
  have len : (pages ++ [v]).length = pages.length + 1 := List.length_append
  have moved := h.advance hs a
  refine ⟨{ m.advance a m.state.transact with map := m.map.set m.next v, next := m.next + 1 }, ⟨moved.state, ?_, ?_, ?_⟩,
    fun n => ?_⟩
  · show m.map.set m.next v = _
    simp only [h.map, h.next lt.le]
    exact mapOf_push lt v
  · rw [if_pos (by omega)]
    exact moved.error.trans (if_pos lt.le)
  · intro _
    rw [len, ← h.next lt.le]
  · rw [loadPages, dif_pos room, h.transact hs, hv]

theorem loadPages_loaded (hs : s.Alone) (ps : List Half) : ∀ {pages : List Half} {m : MapLoad} {a : Addr}, m.Loaded s pages →
    pages.length ≤ 32 → (∀ k (h : k < ps.length), s.realRead16 (a + BitVec.ofNat 24 (2 * k)) = .ok ps[k]) →
    (loadPages ps.length a m).Loaded s (pages ++ ps) := by
  induction ps with
  | nil =>
    intro pages m a h _ _
    rw [List.append_nil]
    exact h
  | cons v ps ih =>
    intro pages m a h le reads
    have first : s.realRead16 a = .ok v := by
      have := reads 0 (Nat.succ_pos _)
      rwa [Nat.mul_zero, BitVec.add_zero] at this
    by_cases lt : pages.length < 32
    · obtain ⟨m', h', run⟩ := loadPages_succ hs h lt first
      rw [List.length_cons, run, List.append_cons]
      refine ih h' (by rw [List.length_append]; exact lt) fun k hk => ?_
      have := reads (k + 1) (Nat.succ_lt_succ hk)
      rwa [addr_succ] at this
    · have full : ¬m.next < 32 := by rw [h.next le]; exact lt
      have long : ¬(pages ++ v :: ps).length ≤ 32 := by rw [List.length_append, List.length_cons]; omega
      rw [List.length_cons, loadPages, dif_neg full]
      exact ⟨h.state, h.map.trans (mapOf_append_full (by omega) _).symm, by rw [if_neg long]; rfl, fun h => absurd h long⟩

/-- A memory error on a page entry after `ps`. -/
theorem loadPages_failed (hs : s.Alone) {e : MemError} {n : Nat} (ps : List Half) : ∀ {pages : List Half} {m : MapLoad} {a : Addr},
    m.Loaded s pages → ps.length < n → pages.length + ps.length < 32 →
    (∀ k (h : k < ps.length), s.realRead16 (a + BitVec.ofNat 24 (2 * k)) = .ok ps[k]) →
    s.realRead16 (a + BitVec.ofNat 24 (2 * ps.length)) = .error e → (loadPages n a m).Failed s e (pages ++ ps) := by
  induction ps generalizing n with
  | nil =>
    intro pages m a h lt room _ bad
    obtain ⟨n, rfl⟩ := Nat.exists_eq_succ_of_ne_zero (Nat.ne_of_gt lt)
    have bad' : s.realRead16 a = .error e := by rwa [List.length_nil, Nat.mul_zero, BitVec.add_zero] at bad
    have room' : m.next < 32 := by rw [h.next (by omega)]; exact room
    rw [loadPages, dif_pos room', h.transact hs, bad', List.append_nil]
    exact h.fails e
  | cons v ps ih =>
    intro pages m a h lt room reads bad
    rw [List.length_cons] at lt room bad
    obtain ⟨n, rfl⟩ := Nat.exists_eq_succ_of_ne_zero (Nat.ne_of_gt (Nat.zero_lt_of_lt lt))
    have first : s.realRead16 a = .ok v := by
      have := reads 0 (Nat.succ_pos _)
      rwa [Nat.mul_zero, BitVec.add_zero] at this
    obtain ⟨m', h', run⟩ := loadPages_succ hs h (by omega) first
    rw [Nat.succ_eq_add_one, run, List.append_cons]
    refine ih h' (Nat.lt_of_succ_lt_succ lt) (by rw [List.length_append, List.length_singleton]; omega) (fun k hk => ?_) ?_
    · have := reads (k + 1) (Nat.succ_lt_succ hk)
      rwa [addr_succ] at this
    · rwa [addr_succ] at bad

theorem msd_count (msd : Word) : (msd.extractLsb' 24 8).toNat = msd.toNat / 2 ^ 24 := by
  rw [extract_toNat]
  have := msd.isLt
  omega

theorem loadSegment_loaded (hs : s.Alone) (h : m.Loaded s pages) (le : pages.length ≤ 32) {a : Addr} {ps : List Half}
    (seg : s.SegmentAt a ps) : (loadSegment a m).Loaded s (pages ++ ps) := by
  obtain ⟨msd, read, count, entries⟩ := seg
  have run : loadSegment a m = loadPages ps.length (msd.extractLsb' 0 24) (m.advance a m.state.transact) := by
    rw [loadSegment, h.transact hs, read, count, ← msd_count]
  rw [run]
  exact loadPages_loaded hs ps (h.advance hs a) le entries

theorem loadSegment_failed (hs : s.Alone) (h : m.Loaded s pages) {e : MemError} {a : Addr} {ps : List Half}
    (bad : s.SegmentFails e pages.length a ps) : (loadSegment a m).Failed s e (pages ++ ps) := by
  obtain ⟨-, ⟨err, rfl⟩ | ⟨msd, read, count, room, entries, err⟩⟩ := bad
  · rw [loadSegment, h.transact hs, err, List.append_nil]
    exact h.fails e
  · rw [loadSegment, h.transact hs, read]
    exact loadPages_failed hs ps ⟨rfl, h.map, h.error, h.next⟩ (by rw [msd_count]; exact count) room entries err

theorem State.SegmentsAt.head {a : Addr} {ps : List Half} {segs : List (List Half)} (h : s.SegmentsAt a (ps :: segs)) :
    s.SegmentAt a ps := by
  have := h 0 (Nat.succ_pos _)
  rwa [Nat.mul_zero, BitVec.add_zero] at this

theorem State.SegmentsAt.tail {a : Addr} {ps : List Half} {segs : List (List Half)} (h : s.SegmentsAt a (ps :: segs)) :
    s.SegmentsAt (a + 4) segs := by
  intro j hj
  have := h (j + 1) (Nat.succ_lt_succ hj)
  rwa [addr_succ] at this

/-- One segment, then the others. -/
theorem loadSegments_succ (hs : s.Alone) (h : m.Loaded s pages) {a : Addr} {ps : List Half} (seg : s.SegmentAt a ps)
    (le : (pages ++ ps).length ≤ 32) (n : Nat) : loadSegments (n + 1) a m = loadSegments n (a + 4) (loadSegment a m) := by
  have short : pages.length ≤ 32 := by rw [List.length_append] at le; omega
  rw [loadSegments, (loadSegment_loaded hs h short seg).error, if_pos le]

theorem loadSegments_loaded (hs : s.Alone) (segs : List (List Half)) : ∀ {pages : List Half} {m : MapLoad} {a : Addr},
    m.Loaded s pages → pages.length ≤ 32 → s.SegmentsAt a segs → (loadSegments segs.length a m).Loaded s (pages ++ segs.flatten) := by
  induction segs with
  | nil =>
    intro pages m a h _ _
    rw [List.flatten_nil, List.append_nil]
    exact h
  | cons ps segs ih =>
    intro pages m a h le at_
    have one := loadSegment_loaded hs h le at_.head
    rw [List.length_cons, List.flatten_cons, ← List.append_assoc]
    by_cases fits : (pages ++ ps).length ≤ 32
    · rw [loadSegments_succ hs h at_.head fits]
      exact ih one fits at_.tail
    · rw [loadSegments, one.error, if_neg fits]
      exact one.overflow (by omega) _

theorem loadSegments_failed (hs : s.Alone) {e : MemError} (segs : List (List Half)) : ∀ {pages last : List Half} {m : MapLoad} {a : Addr}
    {n : Nat}, m.Loaded s pages → segs.length < n → s.SegmentsAt a segs →
    s.SegmentFails e (pages.length + segs.flatten.length) (a + BitVec.ofNat 24 (4 * segs.length)) last →
    (loadSegments n a m).Failed s e (pages ++ (segs.flatten ++ last)) := by
  induction segs with
  | nil =>
    intro pages last m a n h lt _ bad
    obtain ⟨n, rfl⟩ := Nat.exists_eq_succ_of_ne_zero (Nat.ne_of_gt lt)
    rw [List.length_nil, Nat.mul_zero, BitVec.add_zero] at bad
    have one := loadSegment_failed hs h bad
    rw [loadSegments, one.error]
    exact one
  | cons ps segs ih =>
    intro pages last m a n h lt at_ bad
    rw [List.length_cons] at lt bad
    rw [List.flatten_cons, List.length_append, addr_succ] at bad
    obtain ⟨n, rfl⟩ := Nat.exists_eq_succ_of_ne_zero (Nat.ne_of_gt (Nat.zero_lt_of_lt lt))
    have fits : (pages ++ ps).length ≤ 32 := by
      have := bad.1
      rw [List.length_append]
      omega
    have short : pages.length ≤ 32 := by rw [List.length_append] at fits; omega
    rw [Nat.succ_eq_add_one, loadSegments_succ hs h at_.head fits, List.flatten_cons, List.append_assoc, ← List.append_assoc pages]
    exact ih (loadSegment_loaded hs h short at_.head) (Nat.lt_of_succ_lt_succ lt) at_.tail
      (by rw [List.length_append, Nat.add_assoc]; exact bad)

/-! ## The walk as a whole -/

theorem ownDescriptor_eq (n2 : Word) : BitVec.zeroExtend 24 (n2.extractLsb' 2 12 ++ 0#2) = BitVec.ofNat 24 (n2.toNat / 4 % 4096 * 4) := by
  rw [zeroExtend_eq_ofNat, append_toNat, extract_toNat]
  rfl

theorem baseDescriptor_eq (n2 : Word) : BitVec.zeroExtend 24 (n2.extractLsb' 18 12 ++ 0#2) = BitVec.ofNat 24 (n2.toNat / 2 ^ 18 % 4096 * 4) := by
  rw [zeroExtend_eq_ofNat, append_toNat, extract_toNat]
  rfl

theorem segmentCount_eq (mscd : Word) : (mscd.extractLsb' 24 6).toNat = mscd.toNat / 2 ^ 24 % 64 := extract_toNat _ _ _

theorem borrows_iff (mscd : Word) : mscd.getLsbD 31 = true ↔ ¬mscd.toNat / 2 ^ 31 = 0 := by
  rw [getLsbD_eq_decide, decide_eq_true_eq]
  have := mscd.isLt
  omega

/-- The walk before it reads a segment. -/
def State.walkStart (s : State) (n2 : Word) : MapLoad :=
  ⟨Vector.replicate 32 0, 0, none, s.readStops (s.mplAddr + BitVec.zeroExtend 24 (n2.extractLsb' 2 12 ++ 0#2)), s.transact⟩

theorem walkStart_loaded (hs : s.Alone) (n2 : Word) : (s.walkStart n2).Loaded s [] :=
  ⟨State.transact_of_bus hs, mapOf_nil.symm, rfl, fun _ => rfl⟩

section
variable {n2 mscd : Word} (read : s.realRead (s.mplAddr + BitVec.ofNat 24 (n2.toNat / 4 % 4096 * 4)) = .ok mscd)
include read

theorem mapWalk_own (hs : s.Alone) (own : mscd.toNat / 2 ^ 31 = 0) :
    s.mapWalk n2 = loadSegments (mscd.toNat / 2 ^ 24 % 64) (mscd.extractLsb' 0 24) (s.walkStart n2) := by
  have bit : mscd.getLsbD 31 = false := Bool.eq_false_iff.2 fun h => (borrows_iff mscd).1 h own
  have read' : s.transact.realRead (s.mplAddr + BitVec.zeroExtend 24 (n2.extractLsb' 2 12 ++ 0#2)) = .ok mscd := by
    rw [State.transact_of_bus hs, ownDescriptor_eq, read]
  unfold State.mapWalk
  simp only [read', bit, Bool.false_eq_true, if_false, segmentCount_eq]
  rfl

/-- The machine and the map after the base process's first segment. -/
theorem mapWalk_borrowed (hs : s.Alone) (borrows : ¬mscd.toNat / 2 ^ 31 = 0) :
    (∀ e, (loadBorrowed (n2.extractLsb' 18 12) (s.walkStart n2)).error = some e →
      s.mapWalk n2 = loadBorrowed (n2.extractLsb' 18 12) (s.walkStart n2)) ∧
    ((loadBorrowed (n2.extractLsb' 18 12) (s.walkStart n2)).error = none →
      s.mapWalk n2 = loadSegments (mscd.toNat / 2 ^ 24 % 64 - 1) (mscd.extractLsb' 0 24)
        (loadBorrowed (n2.extractLsb' 18 12) (s.walkStart n2))) := by
  have bit : mscd.getLsbD 31 = true := (borrows_iff mscd).2 borrows
  have read' : s.transact.realRead (s.mplAddr + BitVec.zeroExtend 24 (n2.extractLsb' 2 12 ++ 0#2)) = .ok mscd := by
    rw [State.transact_of_bus hs, ownDescriptor_eq, read]
  constructor
  · intro e error
    unfold State.walkStart at error ⊢
    unfold State.mapWalk
    simp only [read', bit, if_true, error]
  · intro error
    unfold State.walkStart at error ⊢
    unfold State.mapWalk
    simp only [read', bit, if_true, segmentCount_eq, error]

end

/-- The base process's first segment, from its segment control descriptor. -/
theorem loadBorrowed_eq (hs : s.Alone) {n2 bmscd : Word}
    (read : s.realRead (s.mplAddr + BitVec.ofNat 24 (n2.toNat / 2 ^ 18 % 4096 * 4)) = .ok bmscd) :
    ∃ m, MapLoad.Loaded s [] m ∧ loadBorrowed (n2.extractLsb' 18 12) (s.walkStart n2) = loadSegment (bmscd.extractLsb' 0 24) m := by
  have start := walkStart_loaded hs n2
  refine ⟨_, start.advance hs (s.mplAddr + BitVec.ofNat 24 (n2.toNat / 2 ^ 18 % 4096 * 4)), ?_⟩
  unfold loadBorrowed
  simp only [start.state, State.transact_of_bus hs, baseDescriptor_eq, read]

theorem loadBorrowed_failed (hs : s.Alone) {n2 : Word} {e : MemError}
    (bad : s.realRead (s.mplAddr + BitVec.ofNat 24 (n2.toNat / 2 ^ 18 % 4096 * 4)) = .error e) :
    (loadBorrowed (n2.extractLsb' 18 12) (s.walkStart n2)).Failed s e [] := by
  have start := walkStart_loaded hs n2
  unfold loadBorrowed
  simp only [start.state, State.transact_of_bus hs, baseDescriptor_eq, bad]
  exact start.fails e

/-- The walk loads the page entries of the process (20_memory.md R102). -/
theorem mapWalk_loaded (hs : s.Alone) {n2 : Word} (h : s.ProcessPages n2 pages) : (s.mapWalk n2).Loaded s pages := by
  obtain ⟨mscd, read, segs, at_, rest⟩ := h
  by_cases own : mscd.toNat / 2 ^ 31 = 0
  · rw [if_pos own] at rest
    obtain ⟨count, rfl⟩ := rest
    rw [mapWalk_own read hs own, ← count]
    exact loadSegments_loaded hs segs (walkStart_loaded hs n2) (Nat.zero_le _) at_
  · rw [if_neg own] at rest
    obtain ⟨bmscd, first, bread, seg, count, rfl⟩ := rest
    obtain ⟨m, hm, run⟩ := loadBorrowed_eq hs bread
    have one := loadSegment_loaded hs hm (Nat.zero_le _) seg
    rw [List.nil_append] at one
    obtain ⟨stops, goes⟩ := mapWalk_borrowed read hs own
    rw [run, one.error] at stops goes
    by_cases fits : first.length ≤ 32
    · rw [goes (if_pos fits), ← count]
      exact loadSegments_loaded hs segs one fits at_
    · rw [stops _ (if_neg fits)]
      exact one.overflow (by omega) _

/-- A memory error on a read of the walk. -/
theorem mapWalk_failed (hs : s.Alone) {n2 : Word} {e : MemError} {map : Vector Half 32} (h : s.WalkFails n2 e map) :
    (s.mapWalk n2).state = s ∧ (s.mapWalk n2).map = map ∧ (s.mapWalk n2).error = some (.memory e) := by
  have of_failed {ps : List Half} {m : MapLoad} (f : m.Failed s e ps) : m.state = s ∧ m.map = mapOf ps ∧ m.error = some (.memory e) :=
    ⟨f.state, f.map, f.error⟩
  rcases h with ⟨bad, rfl⟩ | ⟨mscd, ps, read, rfl, rest⟩
  · have bad' : s.transact.realRead (s.mplAddr + BitVec.zeroExtend 24 (n2.extractLsb' 2 12 ++ 0#2)) = .error e := by
      rw [State.transact_of_bus hs, ownDescriptor_eq, bad]
    unfold State.mapWalk
    simp only [bad', and_true]
    exact State.transact_of_bus hs
  · apply of_failed
    by_cases own : mscd.toNat / 2 ^ 31 = 0
    · rw [if_pos own] at rest
      obtain ⟨segs, last, lt, at_, bad, rfl⟩ := rest
      rw [mapWalk_own read hs own]
      exact loadSegments_failed hs segs (walkStart_loaded hs n2) lt at_ bad
    · rw [if_neg own] at rest
      obtain ⟨stops, goes⟩ := mapWalk_borrowed read hs own
      rcases rest with ⟨bad, rfl⟩ | ⟨bmscd, bread, bad | ⟨first, tail, seg, ⟨segs, last, lt, at_, bad, rfl⟩, rfl⟩⟩
      · have one := loadBorrowed_failed hs bad
        rw [stops _ one.error]
        exact one
      · obtain ⟨m, hm, run⟩ := loadBorrowed_eq hs bread
        have one := loadSegment_failed hs hm bad
        rw [run] at stops
        rw [stops _ one.error]
        exact one
      · obtain ⟨m, hm, run⟩ := loadBorrowed_eq hs bread
        have one := loadSegment_loaded hs hm (Nat.zero_le _) seg
        rw [List.nil_append] at one
        have short : first.length ≤ 32 := by have := bad.1; omega
        rw [run] at goes
        rw [goes (one.error.trans (if_pos short))]
        exact loadSegments_failed hs segs one lt at_ bad

end

end Machine
end Sys2Proof
end

section
/-! PROOFS. LMAP and TMAPR, and the PSD loads (42_memory_management.md R272, R273; 51_control.md R501, R502, R504). -/

namespace Sys2Proof
namespace Machine

/-! ## What the map walk reads -/

/-- `t` reads real memory, and finds the process list and the map, as `s` does. -/
structure State.SameWalk (s t : State) : Prop where
  mem : t.mem = s.mem
  cfg : t.cfg = s.cfg
  parity : t.parityBad = s.parityBad
  list : t.mplAddr = s.mplAddr
  map : t.map = s.map

section
variable {s t : State}

theorem present_congr (hc : t.cfg = s.cfg) (n : Nat) : ∀ a, t.present a n = s.present a n := by
  induction n with
  | zero => exact fun _ => rfl
  | succ n ih => exact fun a => by rw [State.present, State.present, hc, ih]

theorem parityAt_congr (hp : t.parityBad = s.parityBad) (n : Nat) : ∀ a, t.parityAt a n = s.parityAt a n := by
  induction n with
  | zero => exact fun _ => rfl
  | succ n ih => exact fun a => by rw [State.parityAt, State.parityAt, hp, ih]

theorem realRead_congr (hm : t.mem = s.mem) (hc : t.cfg = s.cfg) (hp : t.parityBad = s.parityBad) (a : Addr) :
    t.realRead a = s.realRead a := by
  rw [State.realRead, State.realRead, present_congr hc, parityAt_congr hp, hm]

theorem realRead16_congr (hm : t.mem = s.mem) (hc : t.cfg = s.cfg) (hp : t.parityBad = s.parityBad) (a : Addr) :
    t.realRead16 a = s.realRead16 a := by
  rw [State.realRead16, State.realRead16, present_congr hc, parityAt_congr hp, hm]

variable (h : s.SameWalk t)
include h

theorem State.SameWalk.read (a : Addr) : t.realRead a = s.realRead a := realRead_congr h.mem h.cfg h.parity a

theorem State.SameWalk.read16 (a : Addr) : t.realRead16 a = s.realRead16 a := realRead16_congr h.mem h.cfg h.parity a

theorem State.SameWalk.segmentAt (a : Addr) (ps : List Half) : t.SegmentAt a ps = s.SegmentAt a ps := by
  simp only [State.SegmentAt, h.read, h.read16]

theorem State.SameWalk.segmentsAt (a : Addr) (segs : List (List Half)) : t.SegmentsAt a segs = s.SegmentsAt a segs := by
  simp only [State.SegmentsAt, h.segmentAt]

theorem State.SameWalk.newMap (n2 : Word) (m : Vector Half 32) : t.NewMap n2 m = s.NewMap n2 m := by
  simp only [State.NewMap, State.ProcessPages, h.read, h.segmentAt, h.segmentsAt, h.list, h.map]

theorem State.SameWalk.walkFails (n2 : Word) (e : MemError) (m : Vector Half 32) : t.WalkFails n2 e m = s.WalkFails n2 e m := by
  simp only [State.WalkFails, State.SegmentsFail, State.SegmentFails, h.read, h.read16, h.segmentAt, h.segmentsAt, h.list, h.map]

end

theorem State.SameWalk.withStop (s : State) (b : Bool) : s.SameWalk (s.withStop b) := ⟨rfl, rfl, rfl, rfl, rfl⟩

/-! ## A PSD load -/

theorem psdMapped_eq (n2 : Word) : psdMapped n2 = decide (0x40000000 ≤ n2.toNat) := by
  rw [psdMapped, Bool.eq_iff_iff, decide_eq_true_eq, decide_eq_true_eq, extract_ne_zero_iff]
  have := n2.isLt
  omega

theorem keepsMap_iff (n2 : Word) : keepsMap n2 ↔ (psdMapped n2 && !n2.getLsbD 16) = false := by
  rw [keepsMap, psdMapped_eq, Bool.and_eq_false_iff, decide_eq_false_iff_not, Nat.not_le, Bool.not_eq_false']

/-- Blocking by bits 48-49 of a PSD being loaded. -/
theorem newBlocked_eq (s : State) (n2 : Word) : s.newBlocked n2 =
    if n2.toNat / 0x4000 % 4 = 0 then false else if n2.toNat / 0x4000 % 4 = 1 then true else s.blocked := by
  have bits (k : BitVec 2) : n2.extractLsb' 14 2 = k ↔ n2.toNat / 0x4000 % 4 = k.toNat := by
    rw [BitVec.toNat_eq, extract_toNat]
    exact Iff.rfl
  rw [State.newBlocked]
  simp only [bits]
  rfl

theorem setPsd_loadedPsd (s : State) (n1 n2 : Word) : (s.setPsd n1 n2).LoadedPsd s n1 n2 :=
  ⟨rfl, rfl, rfl, rfl, rfl, rfl, rfl, psdMapped_eq n2, newBlocked_eq s n2, rfl⟩

section
variable {s : State} (n1 : Word) {n2 : Word}

theorem loadPsd_keeps (full : Bool) (h : keepsMap n2) : s.loadPsd full n1 n2 = .done (s.setPsd n1 n2) := by
  rw [State.loadPsd, if_neg]
  rw [Bool.and_assoc, (keepsMap_iff n2).1 h, Bool.and_false]
  exact Bool.false_ne_true

theorem loadPsd_part : s.loadPsd false n1 n2 = .done (s.setPsd n1 n2) := rfl

theorem walks_of_not_keepsMap (h : ¬keepsMap n2) : (true && psdMapped n2 && !n2.getLsbD 16) = true := by
  rw [Bool.true_and]
  exact Bool.eq_true_of_not_eq_false (mt (keepsMap_iff n2).2 h)

/-- A PSD load with its map (20_memory.md R101, R102). -/
theorem loadPsd_newMap (hs : s.Alone) {m : Vector Half 32} (h : s.NewMap n2 m) :
    s.loadPsd true n1 n2 = .done { s.setPsd n1 n2 with map := m } := by
  rcases h with ⟨keeps, rfl⟩ | ⟨walks, pages, le, process, rfl⟩
  · exact loadPsd_keeps n1 true keeps
  · have walk := mapWalk_loaded hs process
    have error := walk.error.trans (if_pos le)
    unfold State.loadPsd
    simp only [walks_of_not_keepsMap walks, if_true, error, walk.state, walk.map]

/-- A memory error in the walk of a PSD load: the PSD is not loaded. -/
theorem loadPsd_walkFails (hs : s.Alone) (walks : ¬keepsMap n2) {e : MemError} {m : Vector Half 32} (h : s.WalkFails n2 e m) :
    s.loadPsd true n1 n2 = .memory e { s with map := m } := by
  obtain ⟨state, map, error⟩ := mapWalk_failed hs h
  unfold State.loadPsd
  simp only [walks_of_not_keepsMap walks, if_true, error, state, map]

end

/-! ## LMAP and TMAPR -/

theorem unmappedOnly_yes {s : State} {k : Outcome} (h : s.mapped = false) : unmappedOnly s k = k := by
  rw [unmappedOnly, h, if_neg Bool.false_ne_true]

theorem unmappedOnly_no {s : State} {k : Outcome} (h : s.mapped = true) : unmappedOnly s k = raise (.systemCheck true) s := by
  rw [unmappedOnly, h, if_pos rfl]

theorem execTmapr_eq {s : State} (hm : s.mode = .psd) (hp : s.priv = true) (sr d : Reg) :
    execTmapr sr d s = unmappedOnly s (.next (s.setReg d (s.mapPair ((s.reg sr).extractLsb' 1 4)))) := by
  rw [execTmapr, psdOnly_psd hm, privileged_yes hp]

theorem mapPair_eq (s : State) {v : Word} {k : Nat} (h : 2 * k + 1 < 32) (hk : v.toNat / 2 % 16 = k) :
    s.mapPair (v.extractLsb' 1 4) = s.map[2 * k] ++ s.map[2 * k + 1] := by
  have val : (v.extractLsb' 1 4).toNat = k := (extract_toNat v 1 4).trans hk
  have even : (v.extractLsb' 1 4 ++ 0#1).toNat = 2 * k := by
    rw [append_toNat, val]
    exact Nat.mul_comm k 2
  have odd : (v.extractLsb' 1 4 ++ 1#1).toNat = 2 * k + 1 := by
    rw [append_toNat, val, Nat.mul_comm]
    rfl
  simp only [State.mapPair, even, odd]

section
variable {s : State} (hm : s.mode = .psd) (hp : s.priv = true) (hu : s.mapped = false)
include hm hp hu

theorem execLmap_eq (hs : s.Alone) {d : Reg} {p2 : Word} (h : s.realRead ((s.reg d).extractLsb' 0 24 + 4) = .ok p2) :
    execLmap d s = loadMap p2 (s.noteRead ((s.reg d).extractLsb' 0 24 + 4)) := by
  rw [execLmap, psdOnly_psd hm, privileged_yes hp, unmappedOnly_yes hu, State.transact_of_bus hs, h]

end

theorem loadMap_loaded {s : State} (hs : s.Alone) (b : Bool) {p2 : Word} {pages : List Half} (h : s.ProcessPages p2 pages) :
    ∃ c, loadMap p2 (s.withStop b) =
      if pages.length ≤ 32 then .next (State.withStop { s with map := mapOf pages } c)
      else raise (.mapFault true) (State.withStop { s with map := mapOf pages } c) := by
  have same := State.SameWalk.withStop s b
  have walk : ((s.withStop b).mapWalk p2).Loaded (s.withStop b) pages := mapWalk_loaded (by exact hs) (by
    simpa only [State.ProcessPages, same.read, same.segmentAt, same.segmentsAt, same.list] using h)
  refine ⟨b || ((s.withStop b).mapWalk p2).hit, ?_⟩
  unfold loadMap
  simp only [walk.error, walk.state, walk.map]
  by_cases le : pages.length ≤ 32
  · simp only [if_pos le]
    rfl
  · simp only [if_neg le]
    rfl

end Machine

open Machine

/-- Settles O34: by the walk's page entries. -/
theorem mapInstructionsComplete : Obligations.MapInstructionsComplete := by
  intro s sr d hm hp
  refine ⟨fun hu => ⟨fun k hk e => ?_, fun p2 pages hs read process => ?_⟩, fun hu => ⟨?_, ?_⟩⟩
  · show execTmapr sr d s = _
    rw [execTmapr_eq hm hp, unmappedOnly_yes hu, mapPair_eq s hk e]
  · obtain ⟨c, run⟩ := loadMap_loaded hs
      (s.stopHit || (s.panel.stopRead && s.comparesTo ((s.reg d).extractLsb' 0 24 + 4))) process
    have eq : execLmap d s = _ := (execLmap_eq hm hp hu hs read).trans run
    exact ⟨fun le => ⟨c, eq.trans (if_pos le)⟩, fun gt => ⟨c, eq.trans (if_neg (Nat.not_le.2 gt))⟩⟩
  · show execTmapr sr d s = _
    rw [execTmapr_eq hm hp, unmappedOnly_no hu]
  · show execLmap d s = _
    rw [execLmap, psdOnly_psd hm, privileged_yes hp, unmappedOnly_no hu]

end Sys2Proof
end

section
/-! PROOFS. The PSD loads by instruction (51_control.md R501, R502, R504). -/

namespace Sys2Proof
namespace Machine

/-! ## The highest active level -/

section
variable {s : State} {l : Level}

theorem lowestActive_none (h : s.active = 0) (n : Nat) : ∀ k, s.lowestActive n k = none := by
  induction n with
  | zero => exact fun _ => rfl
  | succ n ih =>
    intro k
    rw [State.lowestActive, h, show (0 : BitVec 128).getLsbD k = false from BitVec.getLsbD_zero, if_neg Bool.false_ne_true, ih]

theorem lowestActive_some (hl : s.active.getLsbD l.toNat = true) (below : ∀ k, k < l.toNat → s.active.getLsbD k = false) (n : Nat) :
    ∀ k, k ≤ l.toNat → l.toNat < k + n → s.lowestActive n k = some l := by
  induction n with
  | zero => intro k le lt; omega
  | succ n ih =>
    intro k le lt
    rcases Nat.eq_or_lt_of_le le with rfl | lt'
    · rw [State.lowestActive, hl, if_pos rfl, BitVec.ofNat_toNat, BitVec.setWidth_eq]
    · rw [State.lowestActive, below k lt', if_neg Bool.false_ne_true]
      exact ih (k + 1) lt' (by omega)

end

/-- Resetting the highest active level changes no other latch (51_control.md R501). -/
theorem resetHighest_frame (s : State) : s.resetHighest = { s with active := s.resetHighest.active } := by
  unfold State.resetHighest
  split <;> rfl

/-- The level latches after the highest active level is reset. -/
structure State.HighestReset (s : State) (active : BitVec 128) : Prop where
  none : s.active = 0 → active = 0
  some : ∀ l : Level, s.active.getLsbD l.toNat = true → (∀ k, k < l.toNat → s.active.getLsbD k = false) →
    active = s.active &&& ~~~(1#128 <<< l.toNat)

theorem resetHighest_active (s : State) : s.HighestReset s.resetHighest.active where
  none h := by rw [State.resetHighest, lowestActive_none h]; exact h
  some l hl below := by
    rw [State.resetHighest, lowestActive_some hl below 128 0 (Nat.zero_le _) (by have := l.isLt; omega)]
    rfl

/-! ## The PSD at a logical address -/

section
variable {s : State} {a : Addr} {n1 n2 : Word}

theorem loadPsdAt_done (hs : s.Alone) (b full : Bool) (k : State → State) (h1 : s.ReadsWord a n1) (h2 : s.ReadsWord (s.nextWord a) n2)
    {m : Vector Half 32} (load : ∀ t, s.SameWalk t → t.Alone → t.loadPsd full n1 n2 = .done { t.setPsd n1 n2 with map := m }) :
    ∃ c, loadPsdAt full a k (s.withStop b) = .next (k { (s.withStop c).setPsd n1 n2 with map := m }) := by
  obtain ⟨b1, e1⟩ := h1.load b hs
  obtain ⟨b2, e2⟩ := h2.load b1 hs
  have e2 : (s.withStop b1).load32 ((s.withStop b1).nextWord a) = .ok n2 (s.withStop b2) := e2
  refine ⟨((s.withStop b2).noteWalk full n2).stopHit, ?_⟩
  rw [loadPsdAt, e1, Res.finish_ok, e2, Res.finish_ok, load ((s.withStop b2).noteWalk full n2) ⟨rfl, rfl, rfl, rfl, rfl⟩ hs]
  rfl

/-- LPSD leaves the map. -/
theorem loadPsdAt_part (hs : s.Alone) (b : Bool) (k : State → State) (h1 : s.ReadsWord a n1) (h2 : s.ReadsWord (s.nextWord a) n2) :
    ∃ c, loadPsdAt false a k (s.withStop b) = .next (k { (s.withStop c).setPsd n1 n2 with map := s.map }) :=
  loadPsdAt_done hs b false k h1 h2 fun t same _ => by rw [loadPsd_part, ← same.map]; rfl

theorem loadPsdAt_full (hs : s.Alone) (b : Bool) (k : State → State) (h1 : s.ReadsWord a n1) (h2 : s.ReadsWord (s.nextWord a) n2)
    {m : Vector Half 32} (new : s.NewMap n2 m) :
    ∃ c, loadPsdAt true a k (s.withStop b) = .next (k { (s.withStop c).setPsd n1 n2 with map := m }) :=
  loadPsdAt_done hs b true k h1 h2 fun t same ht => loadPsd_newMap n1 ht (by rw [same.newMap]; exact new)

/-- The word after an even word of a doubleword lies in the space of the addressing mode. -/
theorem nextWord_doubleAddr {ea : Addr} (h : s.ext = false → ea.toNat < 2 ^ 19) : s.nextWord (doubleAddr ea) = doubleAddr ea + 4 := by
  rw [nextWord_eq]
  split
  · rfl
  · next hx =>
    have := h (Bool.eq_false_iff.2 hx)
    apply BitVec.eq_of_toNat_eq
    rw [BitVec.toNat_add, doubleAddr_eq, BitVec.toNat_ofNat, BitVec.toNat_ofNat, show (4 : Addr).toNat = 4 from rfl]
    omega

end

/-! ## BRI -/

section
variable {s : State} (m : MemRef 20)

theorem bri_address : (s.addressLevel m.word).ea.toNat = levelAddress s.ext m.addr.toNat (s.indexNumber m.x) := by
  rw [addressLevel_ea, word_field, word_index]

theorem execBri_eq (hc : s.cfg.role = .cpu) (hp : s.priv = true) :
    execBri m s = if m.ind then briIndirect (indirectAddr (s.addressLevel m.word).ea) s
      else .next (s.jump (s.addressLevel m.word).ea).resetHighest := by
  rw [execBri, cpuOnly_cpu hc, privileged_yes hp]

theorem briIndirect_psd (hm : s.mode = .psd) (a : Addr) : briIndirect a s = loadPsdAt true a State.resetHighest s := by
  rw [briIndirect, hm]

theorem briIndirect_psw (hm : s.mode = .psw) (hs : s.Alone) {a : Addr} {n : Word} (h : s.ReadsWord a n) :
    ∃ b, briIndirect a s = .next ((s.withStop b).setPsw n).resetHighest := by
  obtain ⟨b, e⟩ := h.load s.stopHit hs
  have e : s.load32 a = .ok n (s.withStop b) := e
  exact ⟨b, by rw [briIndirect, hm]; show briPsw a s = _; rw [briPsw, e]⟩

end

end Machine

open Machine

/-- Settles O49: by the load of a PSD with its map, and the reset of the lowest active level. -/
theorem psdLoadsComplete : Obligations.PsdLoadsComplete := by
  intro s m hp reset same level at_
  have here : at_ = indirectAddr (s.addressLevel m.word).ea := by rw [indirectAddr_eq, bri_address]
  have resets {u : State} (hu : u.active = s.active) : reset u.resetHighest := by
    have := resetHighest_active u
    exact ⟨fun h => this.none (hu.trans h), fun l hl below => by
      rw [this.some l (by rw [hu]; exact hl) (by rw [hu]; exact below), hu]⟩
  refine ⟨fun hm hs e s1 n1 n2 he h1 h2 => ?_, fun hc hd => ?_, fun hc hi hm hs n1 n2 h1 h2 map new => ?_, fun hc hi hm hs n h => ?_⟩
  · have next := nextWord_doubleAddr (s := s) fun hx => addressLoop_small _ he hx
    obtain ⟨b, rfl⟩ := State.effective_withStop hs he
    rw [← next] at h2
    refine ⟨?_, fun map new => ?_⟩
    · obtain ⟨c, run⟩ := loadPsdAt_part hs b id h1 h2
      refine ⟨{ (s.withStop c).setPsd n1 n2 with map := s.map }, ?_, setPsd_loadedPsd s n1 n2, ⟨rfl, rfl, fun _ => rfl, rfl, rfl⟩, rfl⟩
      show execLpsd m s = _
      rw [execLpsd, psdOnly_psd hm, privileged_yes hp, he, Res.finish_ok, run]
      rfl
    · obtain ⟨c, run⟩ := loadPsdAt_full hs b id h1 h2 new
      refine ⟨{ (s.withStop c).setPsd n1 n2 with map := map }, ?_, setPsd_loadedPsd s n1 n2, ⟨rfl, rfl, fun _ => rfl, rfl, rfl⟩, rfl⟩
      show execLpsdcm m s = _
      rw [execLpsdcm, psdOnly_psd hm, privileged_yes hp, he, Res.finish_ok, run]
      rfl
  · refine ⟨(s.jump (s.addressLevel m.word).ea).resetHighest, ?_, ?_, ?_, ?_, ?_, ?_, resets rfl⟩
    · show execBri m s = _
      rw [execBri_eq m hc hp, hd, if_neg Bool.false_ne_true]
    · rw [resetHighest_frame, State.jump_pc, extract_toNat, bri_address]
      rfl
    all_goals rw [resetHighest_frame]
    · rfl
    · rfl
    · rfl
    · exact ⟨rfl, rfl, fun _ => rfl, rfl, rfl⟩
  · rw [here] at h1 h2
    obtain ⟨c, run⟩ := loadPsdAt_full hs s.stopHit State.resetHighest h1 h2 new
    refine ⟨State.resetHighest { (s.withStop c).setPsd n1 n2 with map := map }, ?_, ?_, ?_, resets rfl⟩
    · show execBri m s = _
      rw [execBri_eq m hc hp, hi, if_pos rfl, briIndirect_psd hm]
      exact run
    all_goals rw [resetHighest_frame]
    · exact setPsd_loadedPsd s n1 n2
    · exact ⟨rfl, rfl, fun _ => rfl, rfl, rfl⟩
  · rw [here] at h
    obtain ⟨b, run⟩ := briIndirect_psw hm hs h
    refine ⟨((s.withStop b).setPsw n).resetHighest, ?_, ?_, ?_, ?_, ?_, ?_, ?_, resets rfl⟩
    · show execBri m s = _
      rw [execBri_eq m hc hp, hi, if_pos rfl, run]
    all_goals rw [resetHighest_frame]
    · rfl
    · rfl
    · rfl
    · rfl
    · rfl
    · exact ⟨rfl, rfl, fun _ => rfl, rfl, rfl⟩

end Sys2Proof
end

section
/-! PROOFS. Context blocks: what an entry stores, and what it loads (60_exceptions.md R651 to R655). -/

namespace Sys2Proof
namespace Machine

theorem present_poke32 (s : State) (a x : Addr) (v : Word) (n : Nat) : (s.poke32 a v).present x n = s.present x n :=
  present_congr (State.poke32_cfg s a v) n x

/-! ## Accesses of a context switch, no bus agent writing -/

section
variable {s : State} {a : Addr} (hs : s.Alone)
include hs

theorem switchRead_alone {w : Word} (h : s.realRead a = .ok w) (k : State → Word → Switch) : s.switchRead a k = k s w := by
  have e := State.transact_of_bus hs
  rw [State.switchRead_ok (by rw [e]; exact h), e]

theorem switchRead_alone_error {e : MemError} (h : s.realRead a = .error e) (k : State → Word → Switch) :
    s.switchRead a k = .memory e s := by
  have e := State.transact_of_bus hs
  rw [State.switchRead_error (by rw [e]; exact h), e]

theorem switchWrite_alone (h : s.present a 4 = true) (v : Word) (k : State → Switch) : s.switchWrite a v k = k (s.poke32 a v) := by
  have e := State.transact_of_bus hs
  rw [State.switchWrite_ok (by rw [e]; exact h), e]

theorem switchWrite_alone_absent (h : s.present a 4 = false) (v : Word) (k : State → Switch) :
    s.switchWrite a v k = .memory .nonpresent s := by
  have e := State.transact_of_bus hs
  rw [State.switchWrite_error (by rw [e]; exact h), e]

theorem storeOldPsd_done (h1 : s.present a 4 = true) (h2 : s.present (a + 4) 4 = true) (k : State → Switch) :
    s.storeOldPsd a k = k ((s.poke32 a s.psd1Image).poke32 (a + 4) s.psd2Image) := by
  have h2' : (s.poke32 a s.psd1Image).present (a + 4) 4 = true := (present_poke32 _ _ _ _ _).trans h2
  rw [State.storeOldPsd, switchWrite_alone hs h1]
  exact switchWrite_alone (poke32_alone hs _ _) h2' _ _

theorem storeStatus_done (h : s.present (a + 16) 4 = true) (k : State → Switch) :
    s.storeStatus a k = k (s.poke32 (a + 16) s.statusWord).clearStatus := by
  rw [State.storeStatus, switchWrite_alone hs h]

theorem enterNewPsd_done {n1 n2 : Word} (h1 : s.realRead (a + 8) = .ok n1) (h2 : s.realRead (a + 12) = .ok n2) {m : Vector Half 32}
    (new : s.NewMap n2 m) : s.enterNewPsd a = .done { s.setPsd n1 n2 with map := m } := by
  rw [State.enterNewPsd, switchRead_alone hs h1, switchRead_alone hs h2, loadPsd_newMap n1 hs new]

end

theorem statusWord_poke32 (s : State) (a : Addr) (v : Word) : (s.poke32 a v).statusWord = s.statusWord := by
  simp only [State.statusWord, State.status, State.liveBits, State.poke32_spad, State.poke32_aexp, State.poke32_trapsEnabled,
    State.poke32_cfg, State.poke32_blocked, State.poke32_mode]

/-! ## Words written apart from one another -/

/-- The words at `x` and `a` have no byte in common. -/
def Apart (x a : Addr) : Prop := ∀ j k : BitVec 24, j < 4 → k < 4 → x + k ≠ a + j

theorem apart_of_add {x a : Addr} {d : Addr} (h : a = x + d) (lo : 4 ≤ d) (hi : d ≤ 0xFFFFFC) : Apart x a := by
  intro j k hj hk
  subst h
  bv_omega

theorem Apart.symm {x a : Addr} (h : Apart x a) : Apart a x := fun j k hj hk e => h k j hk hj e.symm

section
variable {s : State} (hm : Memory.wf s.mem = true)
include hm

theorem read32_poke32_ne {x a : Addr} (h : Apart x a) (v : Word) : Memory.read32 (s.poke32 a v).mem x = Memory.read32 s.mem x :=
  read32_congr fun k hk => sameBytesOutside_poke32 hm a v (x + BitVec.ofNat 24 k) fun j hj =>
    h (BitVec.ofNat 24 j) (BitVec.ofNat 24 k) (by bv_omega) (by bv_omega)

end

/-! ## The context block -/

/-- `s` with words 1, 2 and 5 of the context block at `icb` stored. -/
@[irreducible] def State.block (s : State) (icb : Addr) (w1 w2 w5 : Word) : State := ((s.poke32 icb w1).poke32 (icb + 4) w2).poke32 (icb + 16) w5

theorem memFrame_trans {s t u : State} (h : t = { s with mem := t.mem, parityBad := t.parityBad })
    (k : u = { t with mem := u.mem, parityBad := u.parityBad }) : u = { s with mem := u.mem, parityBad := u.parityBad } :=
  k.trans (by rw [h])

theorem memFrame_poke32 (s : State) (a : Addr) (v : Word) :
    s.poke32 a v = { s with mem := (s.poke32 a v).mem, parityBad := (s.poke32 a v).parityBad } :=
  have one (t : State) (x : Addr) (b : Byte) : t.poke8 x b = { t with mem := (t.poke8 x b).mem, parityBad := (t.poke8 x b).parityBad } := rfl
  memFrame_trans (memFrame_trans (memFrame_trans (one _ _ _) (one _ _ _)) (one _ _ _)) (one _ _ _)

/-- Storing the words of a context block changes memory alone; a byte stored is good again. -/
theorem block_frame (s : State) (icb : Addr) (w1 w2 w5 : Word) : s.block icb w1 w2 w5 =
    { s with mem := (s.block icb w1 w2 w5).mem, parityBad := (s.block icb w1 w2 w5).parityBad } := by
  rw [State.block]
  exact memFrame_trans (memFrame_trans (memFrame_poke32 _ _ _) (memFrame_poke32 _ _ _)) (memFrame_poke32 _ _ _)

section
variable (s : State) (icb : Addr) (w1 w2 w5 : Word)

@[simp] theorem block_cfg : (s.block icb w1 w2 w5).cfg = s.cfg := by rw [block_frame]
@[simp] theorem block_regs : (s.block icb w1 w2 w5).regs = s.regs := by rw [block_frame]
@[simp] theorem block_mode : (s.block icb w1 w2 w5).mode = s.mode := by rw [block_frame]
@[simp] theorem block_blocked : (s.block icb w1 w2 w5).blocked = s.blocked := by rw [block_frame]
@[simp] theorem block_map : (s.block icb w1 w2 w5).map = s.map := by rw [block_frame]
@[simp] theorem block_prot : (s.block icb w1 w2 w5).prot = s.prot := by rw [block_frame]
@[simp] theorem block_spad : (s.block icb w1 w2 w5).spad = s.spad := by rw [block_frame]
@[simp] theorem block_enabled : (s.block icb w1 w2 w5).enabled = s.enabled := by rw [block_frame]
@[simp] theorem block_requesting : (s.block icb w1 w2 w5).requesting = s.requesting := by rw [block_frame]
@[simp] theorem block_active : (s.block icb w1 w2 w5).active = s.active := by rw [block_frame]
@[simp] theorem block_runState : (s.block icb w1 w2 w5).runState = s.runState := by rw [block_frame]
@[simp] theorem block_panel : (s.block icb w1 w2 w5).panel = s.panel := by rw [block_frame]
@[simp] theorem block_ipuDonePending : (s.block icb w1 w2 w5).ipuDonePending = s.ipuDonePending := by rw [block_frame]
@[simp] theorem block_pendingTimeout : (s.block icb w1 w2 w5).pendingTimeout = s.pendingTimeout := by rw [block_frame]
@[simp] theorem block_pendingArith : (s.block icb w1 w2 w5).pendingArith = s.pendingArith := by rw [block_frame]

end

theorem block_alone {s : State} (hs : s.Alone) (icb : Addr) (w1 w2 w5 : Word) : (s.block icb w1 w2 w5).Alone := by
  rw [block_frame]
  exact hs

section
variable (icb : Addr)

theorem apart_4 : Apart icb (icb + 4) := apart_of_add rfl (by decide) (by decide)
theorem apart_16 : Apart icb (icb + 16) := apart_of_add rfl (by decide) (by decide)
theorem apart_4_16 : Apart (icb + 4) (icb + 16) := apart_of_add (d := 12) (by rw [BitVec.add_assoc]; rfl) (by decide) (by decide)
theorem apart_8 : Apart (icb + 8) icb := (apart_of_add rfl (by decide) (by decide)).symm
theorem apart_8_4 : Apart (icb + 8) (icb + 4) := (apart_of_add (d := 4) (by rw [BitVec.add_assoc]; rfl) (by decide) (by decide)).symm
theorem apart_8_16 : Apart (icb + 8) (icb + 16) := apart_of_add (d := 8) (by rw [BitVec.add_assoc]; rfl) (by decide) (by decide)
theorem apart_12 : Apart (icb + 12) icb := (apart_of_add rfl (by decide) (by decide)).symm
theorem apart_12_4 : Apart (icb + 12) (icb + 4) := (apart_of_add (d := 8) (by rw [BitVec.add_assoc]; rfl) (by decide) (by decide)).symm
theorem apart_12_16 : Apart (icb + 12) (icb + 16) := apart_of_add (d := 4) (by rw [BitVec.add_assoc]; rfl) (by decide) (by decide)

variable {s : State} (hm : Memory.wf s.mem = true) (w1 w2 w5 : Word)
include hm

theorem block_word1 : Memory.read32 (s.block icb w1 w2 w5).mem icb = w1 := by
  rw [State.block, read32_poke32_ne (State.poke32_wf (State.poke32_wf hm)) (apart_16 icb),
    read32_poke32_ne (State.poke32_wf hm) (apart_4 icb), read32_poke32 hm]

theorem block_word2 : Memory.read32 (s.block icb w1 w2 w5).mem (icb + 4) = w2 := by
  rw [State.block, read32_poke32_ne (State.poke32_wf (State.poke32_wf hm)) (apart_4_16 icb), read32_poke32 (State.poke32_wf hm)]

theorem block_word5 : Memory.read32 (s.block icb w1 w2 w5).mem (icb + 16) = w5 := by
  rw [State.block]
  exact read32_poke32 (State.poke32_wf (State.poke32_wf hm)) _ _

theorem sameBytesOutside_oldPsd : SameBytesOutside s ((s.poke32 icb w1).poke32 (icb + 4) w2) icb 8 := by
  intro x hx
  rw [sameBytesOutside_poke32 (State.poke32_wf hm) _ _ x, sameBytesOutside_poke32 hm _ _ x fun k hk => hx k (by omega)]
  intro k hk
  rw [BitVec.add_assoc, show (4 : Addr) + BitVec.ofNat 24 k = BitVec.ofNat 24 (4 + k) from (BitVec.ofNat_add 4 k).symm]
  exact hx (4 + k) (by omega)

theorem sameOutsideBlock_block : SameOutsideBlock s (s.block icb w1 w2 w5) icb := by
  intro x hx hx'
  rw [State.block, sameBytesOutside_poke32 (State.poke32_wf (State.poke32_wf hm)) _ _ x hx',
    sameBytesOutside_oldPsd icb hm w1 w2 x hx]

theorem block_read {x : Addr} {w : Word} (h0 : Apart x icb) (h4 : Apart x (icb + 4)) (h16 : Apart x (icb + 16))
    (h : s.realRead x = .ok w) : (s.block icb w1 w2 w5).realRead x = .ok w := by
  rw [State.block]
  exact State.realRead_poke32_ne (State.poke32_wf (State.poke32_wf hm)) h16
    (State.realRead_poke32_ne (State.poke32_wf hm) h4 (State.realRead_poke32_ne hm h0 h))

end

/-! ## A machine that enters with the memory of one state and the PSD of another -/

/-- `q` has the memory of `ref`, and the PSD images of `old` to store. -/
structure State.Entering (q ref old : State) : Prop where
  wf : Memory.wf ref.mem = true
  alone : q.Alone
  mem : q.mem = ref.mem
  cfg : q.cfg = ref.cfg
  parity : q.parityBad = ref.parityBad
  psd1 : q.psd1Image = BitVec.ofNat 32 old.psd1Number
  psd2 : q.psd2Image = old.psd2 ||| (if old.blocked then 0x4000 else 0)

/-- Equal memories after the same byte is written to both. -/
structure State.SameStore (s t : State) : Prop where
  mem : t.mem = s.mem
  cfg : t.cfg = s.cfg
  parity : t.parityBad = s.parityBad

theorem State.SameStore.poke8 {s t : State} (h : s.SameStore t) (a : Addr) (b : Byte) : (s.poke8 a b).SameStore (t.poke8 a b) :=
  ⟨by rw [State.poke8, State.poke8, h.mem], h.cfg, by rw [State.poke8, State.poke8, h.parity]⟩

theorem State.SameStore.poke32 {s t : State} (h : s.SameStore t) (a : Addr) (v : Word) : (s.poke32 a v).SameStore (t.poke32 a v) :=
  (((h.poke8 _ _).poke8 _ _).poke8 _ _).poke8 _ _

theorem State.SameStore.block {s t : State} (h : s.SameStore t) (icb : Addr) (w1 w2 w5 : Word) :
    (s.block icb w1 w2 w5).SameStore (t.block icb w1 w2 w5) := by
  rw [State.block, State.block]
  exact ((h.poke32 _ _).poke32 _ _).poke32 _ _

theorem State.SameStore.read {s t : State} (h : s.SameStore t) (a : Addr) : t.realRead a = s.realRead a :=
  realRead_congr h.mem h.cfg h.parity a

theorem State.Entering.store {q ref old : State} (h : q.Entering ref old) : ref.SameStore q := ⟨h.mem, h.cfg, h.parity⟩

/-- `ref` with the PSD of `old` and the word `fifth` in the block at `icb`. -/
def State.withBlock (ref old : State) (icb : Addr) (fifth : Word) : State :=
  ref.block icb (BitVec.ofNat 32 old.psd1Number) (old.psd2 ||| (if old.blocked then 0x4000 else 0)) fifth

theorem withBlock_read {ref old : State} {icb x : Addr} {fifth w : Word} (hm : Memory.wf ref.mem = true) (h0 : Apart x icb)
    (h4 : Apart x (icb + 4)) (h16 : Apart x (icb + 16)) (h : ref.realRead x = .ok w) :
    (ref.withBlock old icb fifth).realRead x = .ok w := by
  rw [State.withBlock]
  exact block_read icb hm _ _ _ h0 h4 h16 h

/-- The context block after an entry (60_exceptions.md R651). -/
structure State.BlockStored (ref old u : State) (icb : Addr) (fifth : Word) : Prop where
  psd : u.StoredPsd old icb
  word : Memory.read32 u.mem (icb + 16) = fifth
  outside : SameOutsideBlock ref u icb

theorem blockStored_of_mem {ref old u : State} {icb : Addr} {fifth : Word} (hm : Memory.wf ref.mem = true)
    (h : u.mem = (ref.withBlock old icb fifth).mem) : ref.BlockStored old u icb fifth where
  psd := by
    rw [State.StoredPsd, h]
    exact ⟨block_word1 icb hm _ _ _, block_word2 icb hm _ _ _⟩
  word := by rw [h]; exact block_word5 icb hm _ _ _
  outside := by
    intro x hx hx'
    rw [h]
    exact sameOutsideBlock_block icb hm _ _ _ x hx hx'

section
variable {q ref old : State} {icb : Addr} {n1 n2 : Word} (h : q.Entering ref old)
include h

theorem State.Entering.block_store (fifth : Word) :
    (ref.withBlock old icb fifth).SameStore (q.block icb q.psd1Image q.psd2Image fifth) := by
  rw [State.withBlock, ← h.psd1, ← h.psd2]
  exact h.store.block _ _ _ _

theorem State.Entering.present (a : Addr) (n : Nat) : q.present a n = ref.present a n := present_congr h.cfg n a

section
variable (b : ref.BlockAt icb n1 n2)
include b

theorem State.Entering.storeOldPsd (k : State → Switch) :
    q.storeOldPsd icb k = k ((q.poke32 icb q.psd1Image).poke32 (icb + 4) q.psd2Image) :=
  storeOldPsd_done h.alone ((h.present _ _).trans b.1) ((h.present _ _).trans b.2.1) k

/-- The load of the new PSD, after words 1, 2 and 5 are stored. -/
theorem State.Entering.enterNewPsd {t : State} {fifth : Word} (same : (ref.withBlock old icb fifth).SameStore t) (ht : t.Alone)
    {m : Vector Half 32} (new : t.NewMap n2 m) : t.enterNewPsd icb = .done { t.setPsd n1 n2 with map := m } := by
  obtain ⟨-, -, -, r1, r2⟩ := b
  have r1' : t.realRead (icb + 8) = .ok n1 := by
    rw [same.read]
    exact withBlock_read h.wf (apart_8 icb) (apart_8_4 icb) (apart_8_16 icb) r1
  have r2' : t.realRead (icb + 12) = .ok n2 := by
    rw [same.read]
    exact withBlock_read h.wf (apart_12 icb) (apart_12_4 icb) (apart_12_16 icb) r2
  exact enterNewPsd_done ht r1' r2' new

/-- An entry that stores the status word as word 5; `f` is what it does before it loads the new PSD. -/
theorem State.Entering.statusSwitch {f : State → State} (hf : ∀ t : State, t.SameWalk (f t) ∧ (f t).bus = t.bus) {m : Vector Half 32}
    (new : (f (q.block icb q.psd1Image q.psd2Image q.statusWord).clearStatus).NewMap n2 m) :
    q.storeOldPsd icb (fun s1 => s1.storeStatus icb fun s2 => (f s2).enterNewPsd icb) =
      .done { (f (q.block icb q.psd1Image q.psd2Image q.statusWord).clearStatus).setPsd n1 n2 with map := m } := by
  have alone : (q.block icb q.psd1Image q.psd2Image q.statusWord).clearStatus.Alone := block_alone h.alone _ _ _ _
  have word : ((q.poke32 icb q.psd1Image).poke32 (icb + 4) q.psd2Image).statusWord = q.statusWord := by
    rw [statusWord_poke32, statusWord_poke32]
  have there : ((q.poke32 icb q.psd1Image).poke32 (icb + 4) q.psd2Image).present (icb + 16) 4 = true := by
    rw [present_poke32, present_poke32, h.present]
    exact b.2.2.1
  obtain ⟨same, bus⟩ := hf (q.block icb q.psd1Image q.psd2Image q.statusWord).clearStatus
  have store := h.block_store (icb := icb) q.statusWord
  rw [h.storeOldPsd b, storeStatus_done (poke32_alone (poke32_alone h.alone _ _) _ _) there, word]
  rw [State.block] at new same bus store alone ⊢
  exact h.enterNewPsd b ⟨same.mem.trans store.mem, same.cfg.trans store.cfg, same.parity.trans store.parity⟩ (bus.trans alone) new

/-- An entry that stores another word 5. -/
theorem State.Entering.wordSwitch (fifth : Word) {m : Vector Half 32}
    (new : (q.block icb q.psd1Image q.psd2Image fifth).NewMap n2 m) :
    q.storeOldPsd icb (fun s1 => s1.switchWrite (icb + 16) fifth fun s2 => s2.enterNewPsd icb) =
      .done { (q.block icb q.psd1Image q.psd2Image fifth).setPsd n1 n2 with map := m } := by
  have alone := poke32_alone (poke32_alone h.alone icb q.psd1Image) (icb + 4) q.psd2Image
  have there : ((q.poke32 icb q.psd1Image).poke32 (icb + 4) q.psd2Image).present (icb + 16) 4 = true := by
    rw [present_poke32, present_poke32, h.present]
    exact b.2.2.1
  have store := h.block_store (icb := icb) fifth
  rw [h.storeOldPsd b, switchWrite_alone alone there]
  rw [State.block] at new store ⊢
  exact h.enterNewPsd b store (poke32_alone alone _ _) new

end

/-- The context block after the entry of `q`. -/
theorem State.Entering.blockStored {u : State} {fifth : Word} (hu : u.mem = (q.block icb q.psd1Image q.psd2Image fifth).mem) :
    ref.BlockStored old u icb fifth := blockStored_of_mem h.wf (hu.trans (h.block_store fifth).mem)

end

/-- The map of an entry, for a machine that differs from the one the statement speaks of in the status word. -/
theorem State.EntryMap.newMap {s old t : State} {icb : Addr} {fifth n2 : Word} {m : Vector Half 32} (h : s.EntryMap old icb fifth n2 m)
    (same : (s.withBlock old icb fifth).SameStore t) (map : t.map = s.map)
    (spad : ∀ i (hi : i < 256), i ≠ 0x91 → t.spad[i] = s.spad[i]) : t.NewMap n2 m := by
  obtain ⟨new, keeps | ne⟩ := h
  · rcases new with ⟨-, hm⟩ | ⟨walks, -⟩
    · rw [State.poke32_map, State.storedPsd, State.poke32_map, State.poke32_map] at hm
      exact .inl ⟨keeps, hm.trans map.symm⟩
    · exact absurd keeps walks
  · have frame : s.withBlock old icb fifth = { s with
        mem := (s.withBlock old icb fifth).mem, parityBad := (s.withBlock old icb fifth).parityBad } := block_frame _ _ _ _ _
    have cfg : t.cfg = s.cfg := by rw [same.cfg, frame]
    have cell : t.mplAddr = s.mplAddr := by
      have := spad s.cfg.spadMpl.toNat s.cfg.spadMpl.isLt fun e => ne (BitVec.eq_of_toNat_eq e)
      simp only [State.mplAddr, cfg, this]
    have walk : (s.withBlock old icb fifth).SameWalk t := ⟨same.mem, same.cfg, same.parity, by rw [cell, frame]; rfl, by rw [map, frame]⟩
    rw [walk.newMap, State.withBlock, State.block]
    exact new

/-- Only cell X'91' of the scratchpad holds the status word. -/
theorem spad_set_ne (v : Vector Word 256) (w : Word) (i : Nat) (hi : i < 256) (ne : i ≠ 0x91) : (v.set 0x91 w)[i] = v[i] :=
  Vector.getElem_set_ne _ _ (Ne.symm ne)

theorem State.EntryMap.entered {s q old : State} {icb : Addr} {fifth n2 : Word} {m : Vector Half 32} (h : s.EntryMap old icb fifth n2 m)
    (enter : q.Entering s old) (map : q.map = s.map) (spad : ∀ i (hi : i < 256), i ≠ 0x91 → q.spad[i] = s.spad[i]) :
    (q.block icb q.psd1Image q.psd2Image fifth).clearStatus.NewMap n2 m := by
  have store := enter.block_store (icb := icb) fifth
  refine h.newMap ⟨store.mem, store.cfg, store.parity⟩ ((block_map _ _ _ _ _).trans map) fun i hi ne => ?_
  rw [State.clearStatus]
  refine (spad_set_ne _ _ i hi ne).trans ?_
  rw [← spad i hi ne]
  simp only [block_spad]

/-! ## The PSD images -/

theorem psd2Image_eq (s : State) : s.psd2Image = s.psd2 ||| (if s.blocked then 0x4000 else 0) := rfl

/-- An entry at its start: the machine of `s` but for the panel, the status word, and such. -/
theorem entering_self {s q : State} (hm : s.MemoryInv) (alone : q.Alone) (mem : q.mem = s.mem) (cfg : q.cfg = s.cfg)
    (parity : q.parityBad = s.parityBad) (psd1 : q.psd1Image = s.psd1Image) (psd2 : q.psd2Image = s.psd2Image) : q.Entering s s :=
  ⟨hm.1, alone, mem, cfg, parity, psd1.trans (psd1Image_eq s), psd2⟩

theorem loadedPsd_of {s t : State} (n1 n2 : Word) (m : Vector Half 32) (blocked : t.blocked = s.blocked) (mode : t.mode = s.mode) :
    State.LoadedPsd { t.setPsd n1 n2 with map := m } s n1 n2 := by
  have h := setPsd_loadedPsd t n1 n2
  rw [State.LoadedPsd, blocked, mode] at h
  exact h

/-! ## A trap entry in PSD mode -/

/-- The machine at the start of a trap entry. -/
def State.trapStart (s : State) (t : Trap) : State :=
  State.wake { s.orStatus (t.statusBits .psd) with blockCount := if t = Trap.blockTimeout then 0 else s.blockCount }

theorem trapEntry_done {s u : State} {t : Trap} (n : Nat) (ready : t.arming = true → s.trapsEnabled = true)
    (h : (s.trapStart t).trapSwitch t.vector = .done u) : trapEntry (n + 1) t s = { u with execDepth := false } := by
  unfold State.trapStart at h
  unfold trapEntry
  dsimp only at h ⊢
  split
  · next halts =>
    obtain ⟨arms, disabled⟩ := Bool.and_eq_true_iff.1 halts
    rw [State.orStatus_trapsEnabled, ready arms] at disabled
    cases disabled
  · rw [h]

theorem raise_psd {s : State} {t : Trap} (hc : s.cfg.role = .cpu) (hm : s.mode = .psd) :
    raise t s = .next (trapEntry entryLimit t (s.abandon t)) := by
  unfold raise
  rw [hc, hm]

theorem statusWord_clear (s : State) : s.clearStatus.status &&& 0xFFFFFF00 = 0 := by
  rw [State.clearStatus, status_set, BitVec.and_assoc]
  exact BitVec.and_zero

/-- A trap entry through a context block that is present. -/
theorem State.Entering.trapSwitch {q ref old : State} (h : q.Entering ref old) {vector : Addr} {v n1 n2 : Word}
    (hv : ref.realRead vector = .ok v) (b : ref.BlockAt (v.extractLsb' 0 24) n1 n2) {m : Vector Half 32}
    (new : (q.block (v.extractLsb' 0 24) q.psd1Image q.psd2Image q.statusWord).clearStatus.NewMap n2 m) :
    q.trapSwitch vector =
      .done { (q.block (v.extractLsb' 0 24) q.psd1Image q.psd2Image q.statusWord).clearStatus.setPsd n1 n2 with map := m } := by
  rw [State.trapSwitch, switchRead_alone h.alone ((h.store.read vector).trans hv)]
  exact h.statusSwitch b (f := id) (fun _ => ⟨⟨rfl, rfl, rfl, rfl, rfl⟩, rfl⟩) new

end Machine

open Machine

/-- Settles O20: by the stores of the context block and the load of the new PSD. -/
theorem trapEntryInPsdMode : Obligations.TrapEntryInPsdMode := by
  intro s t v n1 n2 m hm hs hc hmode ready hv b fifth map
  have enter : ((s.abandon t).trapStart t).Entering s s := entering_self hm hs rfl rfl rfl rfl rfl
  have status : ((s.abandon t).trapStart t).statusWord = fifth := by
    show (State.status { s with spad := s.spad.set 0x91 (s.status ||| t.statusBits .psd) } &&& 0xFFFFFF1E) ||| s.liveBits = _
    rw [status_set]
  have new := map.entered enter rfl fun i hi ne => spad_set_ne _ _ i hi ne
  rw [← status] at new
  have run := trapEntry_done (s := s.abandon t) (t := t) 3 ready (enter.trapSwitch hv b new)
  refine ⟨_, (raise_psd hc hmode).trans (congrArg _ run), loadedPsd_of n1 n2 m (block_blocked _ _ _ _ _) (block_mode _ _ _ _ _), ?_⟩
  obtain ⟨psd, word, outside⟩ := enter.blockStored (fifth := ((s.abandon t).trapStart t).statusWord) rfl
  refine ⟨psd, word.trans status, outside, statusWord_clear _, block_regs _ _ _ _ _, rfl, block_prot _ _ _ _ _, block_enabled _ _ _ _ _,
    block_requesting _ _ _ _ _, block_active _ _ _ _ _, (block_runState _ _ _ _ _).trans ?_⟩
  show (match s.runState with | .wait => RunState.run | r => r) = _
  cases s.runState <;> rfl

end Sys2Proof
end

section
/-! PROOFS. Traps at the boundary, traps on an IPU, and the Supervisor Call (60_exceptions.md R626, R640, R662, R681
to R684). -/

namespace Sys2Proof
namespace Machine

/-! ## A whole trap entry -/

/-- What a trap entry through the block at `icb` leaves, the new PSD being `n1` and `n2` with the map `m`. -/
def State.trapDone (s : State) (t : Trap) (icb : Addr) (n1 n2 : Word) (m : Vector Half 32) : State :=
  { ((s.trapStart t).block icb (s.trapStart t).psd1Image (s.trapStart t).psd2Image (s.trapStart t).statusWord).clearStatus.setPsd n1 n2 with
    map := m, execDepth := false }

theorem trapStart_statusWord (s : State) (t : Trap) : (s.trapStart t).statusWord =
    ((s.status ||| t.statusBits .psd) &&& 0xFFFFFF1E) ||| s.liveBits := by
  show (State.status { s with spad := s.spad.set 0x91 (s.status ||| t.statusBits .psd) } &&& 0xFFFFFF1E) ||| s.liveBits = _
  rw [status_set]

/-- The entry of a trap, met by a machine `q` that is `s` but for what an entry leaves aside. -/
theorem trapEntry_trapDone {s q : State} {t : Trap} {v n1 n2 fifth : Word} {m : Vector Half 32} (n : Nat)
    (ready : t.arming = true → q.trapsEnabled = true) (enter : (q.trapStart t).Entering s s) (map : q.map = s.map) (spad : q.spad = s.spad)
    (word : (q.trapStart t).statusWord = fifth) (hv : s.realRead t.vector = .ok v) (b : s.BlockAt (v.extractLsb' 0 24) n1 n2)
    (new : s.EntryMap s (v.extractLsb' 0 24) fifth n2 m) :
    trapEntry (n + 1) t q = q.trapDone t (v.extractLsb' 0 24) n1 n2 m := by
  have new := new.entered enter map fun i hi ne => (spad_set_ne _ _ i hi ne).trans (by simp only [spad])
  rw [← word] at new
  exact trapEntry_done n ready (enter.trapSwitch hv b new)

section
variable {q : State} {t : Trap} {icb : Addr} {n1 n2 : Word} {m : Vector Half 32}

theorem trapDone_loadedPsd {s : State} (blocked : q.blocked = s.blocked) (mode : q.mode = s.mode) :
    (q.trapDone t icb n1 n2 m).LoadedPsd s n1 n2 := by
  have h := loadedPsd_of (s := s) (t := ((q.trapStart t).block icb (q.trapStart t).psd1Image (q.trapStart t).psd2Image
    (q.trapStart t).statusWord).clearStatus) n1 n2 m ((block_blocked _ _ _ _ _).trans blocked) ((block_mode _ _ _ _ _).trans mode)
  exact h

theorem trapDone_mem : (q.trapDone t icb n1 n2 m).mem =
    ((q.trapStart t).block icb (q.trapStart t).psd1Image (q.trapStart t).psd2Image (q.trapStart t).statusWord).mem := rfl

variable (q t icb n1 n2 m)

theorem trapDone_regs : (q.trapDone t icb n1 n2 m).regs = q.regs := block_regs _ _ _ _ _
theorem trapDone_active : (q.trapDone t icb n1 n2 m).active = q.active := block_active _ _ _ _ _
theorem trapDone_pendingTimeout : (q.trapDone t icb n1 n2 m).pendingTimeout = q.pendingTimeout := block_pendingTimeout _ _ _ _ _
theorem trapDone_pendingArith : (q.trapDone t icb n1 n2 m).pendingArith = q.pendingArith := block_pendingArith _ _ _ _ _

end

/-- A step at whose boundary an entry is made, for what does not speak of the status word. -/
theorem step_of_entered {s t : State} (hi : s.inputs = []) (hr : s.runState = .run ∨ s.runState = .wait) (h : boundary s = .entered (.next t)) :
    ∃ sp, step s = .next { t with spad := sp } := by
  obtain ⟨sp, eq, -, -⟩ := mirrorStatus_frame t s
  refine ⟨sp, ?_⟩
  unfold step
  rw [hi]
  have cycles : processorStep s = cycle s := by
    unfold processorStep
    rcases hr with hr | hr <;> rw [hr]
  simp only [cycles, cycle, h]
  exact congrArg Host.Outcome.next eq

/-! ## Traps on an IPU -/

section
variable {q ref old : State} {icb : Addr} {n1 n2 : Word}

/-- What the context switch of an IPU trap leaves. -/
def State.ipuDone (q : State) (vector icb : Addr) (n1 n2 : Word) (m : Vector Half 32) : State :=
  { ((q.block icb q.psd1Image q.psd2Image q.statusWord).clearStatus.signalDone vector).setPsd n1 n2 with map := m }

theorem State.Entering.ipuSwitch (h : q.Entering ref old) (b : ref.BlockAt icb n1 n2) (vector : Addr) {m : Vector Half 32}
    (new : (q.block icb q.psd1Image q.psd2Image q.statusWord).clearStatus.NewMap n2 m) :
    q.ipuSwitch vector icb = .done (q.ipuDone vector icb n1 n2 m) := by
  have same (t : State) : t.SameWalk (t.signalDone vector) := ⟨rfl, rfl, rfl, rfl, rfl⟩
  exact h.statusSwitch b (f := fun t => t.signalDone vector) (fun t => ⟨same t, rfl⟩) (by rw [(same _).newMap]; exact new)

theorem ipuDone_loadedPsd {s : State} (vector : Addr) (m : Vector Half 32) (blocked : q.blocked = s.blocked) (mode : q.mode = s.mode) :
    (q.ipuDone vector icb n1 n2 m).LoadedPsd s n1 n2 := by
  have h := loadedPsd_of (s := s) (t := (q.block icb q.psd1Image q.psd2Image q.statusWord).clearStatus.signalDone vector) n1 n2 m
    ((block_blocked _ _ _ _ _).trans blocked) ((block_mode _ _ _ _ _).trans mode)
  exact h

theorem ipuDone_mem (vector : Addr) (m : Vector Half 32) :
    (q.ipuDone vector icb n1 n2 m).mem = (q.block icb q.psd1Image q.psd2Image q.statusWord).mem := rfl

variable (q icb n1 n2)

theorem ipuDone_regs (vector : Addr) (m : Vector Half 32) : (q.ipuDone vector icb n1 n2 m).regs = q.regs := block_regs _ _ _ _ _

theorem ipuDone_status (vector : Addr) (m : Vector Half 32) : (q.ipuDone vector icb n1 n2 m).status &&& 0xFFFFFF00 = 0 :=
  statusWord_clear (q.block icb q.psd1Image q.psd2Image q.statusWord)

theorem ipuDone_done (vector : Addr) (m : Vector Half 32) :
    (q.ipuDone vector icb n1 n2 m).ipuDonePending = (q.ipuDonePending || decide (vector = 0x2F4)) := by
  show ((q.block icb q.psd1Image q.psd2Image q.statusWord).ipuDonePending || _) = _
  rw [block_ipuDonePending]

end

theorem ipuTrap_done {q : State} (hs : q.Alone) {vector : Addr} {v n1 n2 : Word} {m : Vector Half 32} (hv : q.realRead vector = .ok v)
    (h : q.ipuSwitch vector (v.extractLsb' 0 24) = .done (q.ipuDone vector (v.extractLsb' 0 24) n1 n2 m)) :
    ipuTrap vector q = .next (q.ipuDone vector (v.extractLsb' 0 24) n1 n2 m).ipuRunning := by
  rw [ipuTrap, switchRead_alone hs hv, vectorAddr, h, afterIpuSwitch]

theorem ipuError_done {s : State} {bits : Word} (hs : s.Alone) {v n1 n2 : Word} {m : Vector Half 32}
    (hv : (s.orStatus bits).realRead 0x2EC = .ok v)
    (h : (s.orStatus bits).ipuSwitch 0x2EC (v.extractLsb' 0 24) = .done ((s.orStatus bits).ipuDone 0x2EC (v.extractLsb' 0 24) n1 n2 m)) :
    ipuError bits s = .next ((s.orStatus bits).ipuDone 0x2EC (v.extractLsb' 0 24) n1 n2 m).ipuRunning := by
  unfold ipuError
  rw [switchRead_alone (show (s.orStatus bits).Alone from hs) hv, vectorAddr, h]

theorem raise_ipu {s : State} {t : Trap} (hc : s.cfg.role = .ipu) : raise t s = ipuError t.ipuStatusBits (s.abandon t) := by
  unfold raise
  rw [hc]

/-! ## The Supervisor Call -/

theorem svcVector_eq (ix : BitVec 4) : BitVec.zeroExtend 24 (ix ++ 0#2) = BitVec.ofNat 24 (4 * ix.toNat) := by
  rw [zeroExtend_eq_ofNat, append_toNat, Nat.mul_comm]
  rfl

/-- What the Supervisor Call of a CPU leaves. -/
def svcDone (s : State) (icb : Addr) (call n1 n2 : Word) (m : Vector Half 32) : State :=
  { (s.block icb s.psd1Image s.psd2Image call).setPsd n1 n2 with map := m, execDepth := false }

section
variable {s : State} {ix : BitVec 4} {call : BitVec 12} {table v : Word} (hs : s.Alone)
include hs

theorem svcTrap_cpu (hc : s.cfg.role = .cpu) (ht : s.realRead 0x180 = .ok table)
    (hv : s.realRead (table.extractLsb' 0 24 + BitVec.ofNat 24 (4 * ix.toNat)) = .ok v) :
    svcTrap ix call s = .next (State.afterSwitch (s.storeOldPsd (v.extractLsb' 0 24) fun s3 =>
      s3.switchWrite (v.extractLsb' 0 24 + 16) (BitVec.ofNat 32 call.toNat) fun s4 => s4.enterNewPsd (v.extractLsb' 0 24))) := by
  unfold svcTrap
  rw [hc]
  dsimp only
  rw [switchRead_alone hs ht, svcVector_eq, vectorAddr, switchRead_alone hs hv, zeroExtend_eq_ofNat, vectorAddr]

theorem svcTrap_ipu (hc : s.cfg.role = .ipu) (ht : s.realRead 0x2E8 = .ok table)
    (hv : s.realRead (table.extractLsb' 0 24 + BitVec.ofNat 24 (4 * ix.toNat)) = .ok v) :
    svcTrap ix call s = afterIpuSwitch (s.ipuSwitch 0x2E8 (v.extractLsb' 0 24)) := by
  unfold svcTrap
  rw [hc]
  dsimp only
  rw [switchRead_alone hs ht, svcVector_eq, vectorAddr, switchRead_alone hs hv, vectorAddr]

end

end Machine

open Machine

/-- Settles O23: by the context switch of an IPU trap. -/
theorem ipuErrorTrap : Obligations.IpuErrorTrap := by
  intro s t v n1 n2 m hm hs hc hmode hv b fifth map
  have enter : ((s.abandon t).orStatus t.ipuStatusBits).Entering s s := entering_self hm hs rfl rfl rfl rfl rfl
  have word : ((s.abandon t).orStatus t.ipuStatusBits).statusWord = fifth := by
    show (State.status { s with spad := s.spad.set 0x91 (s.status ||| t.ipuStatusBits) } &&& 0xFFFFFF1E) ||| s.liveBits = _
    rw [status_set]
  have new := map.entered enter rfl fun i hi ne => spad_set_ne _ _ i hi ne
  rw [← word] at new
  have run := ipuError_done (s := s.abandon t) (bits := t.ipuStatusBits) hs ((enter.store.read _).trans hv) (enter.ipuSwitch b 0x2EC new)
  obtain ⟨psd, read, outside⟩ := enter.blockStored (ipuDone_mem (icb := v.extractLsb' 0 24) (n1 := n1) (n2 := n2) 0x2EC m)
  have loaded := ipuDone_loadedPsd (q := (s.abandon t).orStatus t.ipuStatusBits) (icb := v.extractLsb' 0 24) (n1 := n1) (n2 := n2)
    (s := s) 0x2EC m rfl rfl
  exact ⟨_, (raise_ipu hc).trans run, loaded, psd, read.trans word, outside, ipuDone_status _ _ n1 n2 0x2EC m, ipuDone_regs _ _ n1 n2 0x2EC m, rfl, rfl,
    (ipuDone_done _ _ n1 n2 0x2EC m).trans (Bool.or_false _)⟩

/-- Settles O24: at the boundary a pending trap goes before everything but Power Fail. -/
theorem pendingTrapsEntered : Obligations.PendingTrapsEntered := by
  intro s timeout v n1 n2 m hm hs hi hc hmode hr hpower htimeout harith hv b fifth map
  have done {q : State} {t : Trap} (at_ : boundary s = .entered (.next (trapEntry entryLimit t q)))
      (run : trapEntry entryLimit t q = q.trapDone t (v.extractLsb' 0 24) n1 n2 m) (enter : (q.trapStart t).Entering s s)
      (word : (q.trapStart t).statusWord = fifth) (blocked : q.blocked = s.blocked) (mode : q.mode = s.mode) (regs : q.regs = s.regs)
      (active : q.active = s.active) (pt : q.pendingTimeout = false) (pa : q.pendingArith = (s.pendingArith && timeout)) :
      ∃ u, step s = .next u ∧ u.LoadedPsd s n1 n2 ∧ u.StoredPsd s (v.extractLsb' 0 24) ∧
        Memory.read32 u.mem (v.extractLsb' 0 24 + 16) = fifth ∧ SameOutsideBlock s u (v.extractLsb' 0 24) ∧
        u.regs = s.regs ∧ u.map = m ∧ u.active = s.active ∧ u.pendingTimeout = false ∧ u.pendingArith = (s.pendingArith && timeout) := by
    obtain ⟨sp, eq⟩ := step_of_entered hi (.inl hr) at_
    obtain ⟨psd, read, outside⟩ := enter.blockStored (trapDone_mem (icb := v.extractLsb' 0 24) (n1 := n1) (n2 := n2) (m := m))
    rw [run] at eq
    refine ⟨_, eq, trapDone_loadedPsd (m := m) blocked mode, psd, read.trans word, outside, (trapDone_regs _ _ _ n1 n2 m).trans regs, rfl,
      (trapDone_active _ _ _ n1 n2 m).trans active, ?_, ?_⟩
    · exact (trapDone_pendingTimeout _ _ _ n1 n2 m).trans pt
    · exact (trapDone_pendingArith _ _ _ n1 n2 m).trans pa
  have word (q : State) (t : Trap) (bits : t.statusBits .psd = 0) (same : q.status = s.status) (live : q.liveBits = s.liveBits) :
      (q.trapStart t).statusWord = fifth := by
    rw [trapStart_statusWord, bits, same, live, show s.status ||| 0 = s.status from BitVec.or_zero]
  cases timeout with
  | true =>
    have enter : (State.trapStart { s with pendingTimeout := false } .blockTimeout).Entering s s := entering_self hm hs rfl rfl rfl rfl rfl
    have word := word { s with pendingTimeout := false } .blockTimeout rfl rfl rfl
    refine done (q := { s with pendingTimeout := false }) (t := .blockTimeout) ?_
      (trapEntry_trapDone 3 (fun h => nomatch h) enter rfl rfl word hv b map) enter word rfl rfl rfl rfl rfl (Bool.and_true _).symm
    unfold boundary cpuBoundary takeTimeout
    rw [hc, hpower, htimeout, hmode]
    rfl
  | false =>
    have enter : (State.trapStart { s with pendingArith := false } .arithmetic).Entering s s := entering_self hm hs rfl rfl rfl rfl rfl
    have word := word { s with pendingArith := false } .arithmetic rfl rfl rfl
    refine done (q := { s with pendingArith := false }) (t := .arithmetic) ?_
      (trapEntry_trapDone 3 (fun h => nomatch h) enter rfl rfl word hv b map) enter word rfl rfl rfl rfl htimeout (Bool.and_false _).symm
    unfold boundary cpuBoundary takeArithmetic
    rw [hc, hpower, htimeout, harith rfl, hmode]
    rfl

/-- Settles O52: through the two vectors, the stores and the load of the new PSD. -/
theorem supervisorCallCompletes : Obligations.SupervisorCallCompletes := by
  intro s ix call table v n1 n2 m hm hs hc hmode ht hv b map
  have enter : (s.setCc 0).Entering s { s with cc := 0 } := ⟨hm.1, hs, rfl, rfl, rfl, psd1Image_eq _, rfl⟩
  have store := enter.block_store (icb := v.extractLsb' 0 24) (BitVec.ofNat 32 call.toNat)
  have new := map.newMap store (block_map _ _ _ _ _) fun i hi _ => by rw [block_spad]; rfl
  have run : exec (.svc ix call) s = .next (svcDone (s.setCc 0) (v.extractLsb' 0 24) (BitVec.ofNat 32 call.toNat) n1 n2 m) := by
    show execSvc ix call s = _
    rw [execSvc, psdOnly_psd hmode, svcTrap_cpu (s := s.setCc 0) hs hc ((enter.store.read _).trans ht) ((enter.store.read _).trans hv),
      enter.wordSwitch b _ new]
    rfl
  obtain ⟨psd, read, outside⟩ := enter.blockStored (u := svcDone (s.setCc 0) (v.extractLsb' 0 24) (BitVec.ofNat 32 call.toNat) n1 n2 m) rfl
  have loaded := loadedPsd_of (s := s) (t := (s.setCc 0).block (v.extractLsb' 0 24) (s.setCc 0).psd1Image (s.setCc 0).psd2Image
    (BitVec.ofNat 32 call.toNat)) n1 n2 m (block_blocked _ _ _ _ _) (block_mode _ _ _ _ _)
  exact ⟨_, run, loaded, psd, read, outside, block_regs _ _ _ _ _, rfl, block_spad _ _ _ _ _, block_active _ _ _ _ _,
    block_requesting _ _ _ _ _⟩

/-- Settles O53: each service is an IPU trap through its own vector. -/
theorem ipuServiceTrapsComplete : Obligations.IpuServiceTrapsComplete := by
  intro s v n1 n2 m hm hs hc hmode b fifth entered
  have done {q old : State} {i : Instr} {vector : Addr} {d : Bool} (enter : q.Entering s old) (map : q.map = s.map) (spad : q.spad = s.spad)
      (word : q.statusWord = fifth) (regs : q.regs = s.regs) (blocked : q.blocked = s.blocked) (mode : q.mode = s.mode)
      (pending : q.ipuDonePending = s.ipuDonePending) (hd : decide (vector = 0x2F4) = d)
      (run : q.ipuSwitch vector (v.extractLsb' 0 24) = .done (q.ipuDone vector (v.extractLsb' 0 24) n1 n2 m) →
        exec i s = .next (q.ipuDone vector (v.extractLsb' 0 24) n1 n2 m).ipuRunning) : entered i old d := by
    intro em
    have new := em.entered enter map fun j hj _ => by simp only [spad]
    rw [← word] at new
    obtain ⟨psd, read, outside⟩ := enter.blockStored (ipuDone_mem (icb := v.extractLsb' 0 24) (n1 := n1) (n2 := n2) vector m)
    have loaded := ipuDone_loadedPsd (icb := v.extractLsb' 0 24) (n1 := n1) (n2 := n2) vector m blocked mode
    refine ⟨_, run (enter.ipuSwitch b vector new), loaded, psd, read.trans word, outside, (ipuDone_regs _ _ n1 n2 vector m).trans regs, rfl, rfl,
      ipuDone_status _ _ n1 n2 vector m, (ipuDone_done _ _ n1 n2 vector m).trans ?_⟩
    rw [pending, hd]
  have self : s.Entering s s := entering_self hm hs rfl rfl rfl rfl rfl
  refine ⟨fun ix call table ht hv => ?_, fun f hv => ?_, fun hv => ?_⟩
  · have enter : (s.setCc 0).Entering s { s with cc := 0 } := ⟨hm.1, hs, rfl, rfl, rfl, psd1Image_eq _, rfl⟩
    refine done (vector := 0x2E8) enter rfl rfl rfl rfl rfl rfl rfl rfl fun switch => ?_
    show execSvc ix call s = _
    rw [execSvc, psdOnly_psd hmode, svcTrap_ipu (s := s.setCc 0) hs hc ((enter.store.read _).trans ht) ((enter.store.read _).trans hv),
      switch, afterIpuSwitch]
  · refine done (vector := 0x2F0) self rfl rfl rfl rfl rfl rfl rfl rfl fun switch => ?_
    show execCalm f s = _
    unfold execCalm
    rw [hc]
    exact ipuTrap_done hs hv switch
  · refine done (vector := 0x2F4) self rfl rfl rfl rfl rfl rfl rfl rfl fun switch => ?_
    show execSipu s = _
    unfold execSipu
    rw [hc]
    exact ipuTrap_done hs hv switch

end Sys2Proof
end

section
/-! PROOFS. The trap halt, and PSW mode's traps and interrupts (60_exceptions.md R622, R652, R670, R671). -/

namespace Sys2Proof
namespace Machine

/-! ## The store area of a trap halt -/

theorem present_part {s : State} {a : Addr} {n : Nat} (m k : Nat) (h : s.present a n = true) (le : k + m ≤ n) :
    s.present (a + BitVec.ofNat 24 k) m = true := by
  induction k generalizing a n with
  | zero =>
    rw [BitVec.add_zero]
    induction m generalizing a n with
    | zero => rfl
    | succ m ih =>
      obtain ⟨n, rfl⟩ := Nat.exists_eq_succ_of_ne_zero (by omega : n ≠ 0)
      rw [Nat.succ_eq_add_one, State.present, Bool.and_eq_true_iff] at h
      rw [State.present, Bool.and_eq_true_iff]
      exact ⟨h.1, ih h.2 (by omega)⟩
  | succ k ih =>
    obtain ⟨n, rfl⟩ := Nat.exists_eq_succ_of_ne_zero (by omega : n ≠ 0)
    rw [Nat.succ_eq_add_one, State.present, Bool.and_eq_true_iff] at h
    have := ih h.2 (by omega)
    rwa [BitVec.add_assoc, show (1 : Addr) + BitVec.ofNat 24 k = BitVec.ofNat 24 (k + 1) by rw [Nat.add_comm k 1]; exact (BitVec.ofNat_add 1 k).symm] at this

theorem storeOrLose_alone {s : State} {a : Addr} (hs : s.Alone) (h : s.present a 4 = true) (v : Word) :
    s.storeOrLose a v = s.poke32 a v := by
  rw [State.storeOrLose, State.transact_of_bus hs, State.realWriteOrLose, if_pos h]

theorem poke32_clearStatus (s : State) (a : Addr) (v : Word) : s.clearStatus.poke32 a v = (s.poke32 a v).clearStatus := by
  have one (t : State) (x : Addr) (b : Byte) : t.clearStatus.poke8 x b = (t.poke8 x b).clearStatus := rfl
  rw [State.poke32, State.poke16, State.poke16, State.poke32, State.poke16, State.poke16, one, one, one, one]

theorem clearStatus_alone {s : State} (hs : s.Alone) : s.clearStatus.Alone := hs

/-- The old PSD in the store area, in PSW mode its first word alone. -/
def State.haltPsd (s : State) : State :=
  if s.mode = .psd then (s.poke32 0x530 s.psd1Image).poke32 0x534 s.psd2Image else s.poke32 0x530 s.psd1Image

/-- The store area of a trap halt written: the old PSD, the status word, and two zero words. -/
@[irreducible] def State.haltArea (s : State) : State :=
  ((s.haltPsd.poke32 0x538 s.statusWord).poke32 0x53C 0).poke32 0x540 0

theorem haltPsd_frame (s : State) : s.haltPsd = { s with mem := s.haltPsd.mem, parityBad := s.haltPsd.parityBad } := by
  unfold State.haltPsd
  split
  · exact memFrame_trans (memFrame_poke32 _ _ _) (memFrame_poke32 _ _ _)
  · exact memFrame_poke32 _ _ _

theorem haltArea_frame (s : State) : s.haltArea = { s with mem := s.haltArea.mem, parityBad := s.haltArea.parityBad } := by
  rw [State.haltArea]
  exact memFrame_trans (memFrame_trans (memFrame_trans (haltPsd_frame s) (memFrame_poke32 _ _ _)) (memFrame_poke32 _ _ _))
    (memFrame_poke32 _ _ _)

theorem haltPsd_mode (s : State) : s.haltPsd.mode = s.mode := by rw [haltPsd_frame]
theorem haltPsd_alone {s : State} (hs : s.Alone) : s.haltPsd.Alone := by rw [haltPsd_frame]; exact hs
theorem haltPsd_present (s : State) (a : Addr) (n : Nat) : s.haltPsd.present a n = s.present a n :=
  present_congr (by rw [haltPsd_frame]) n a

/-- What a trap halt leaves beside the store area. -/
def State.halted (s : State) (vector : Addr) : State :=
  { s.clearStatus with
    pc := vector.extractLsb' 1 18
    runState := .halt
    hist := Config.freeHist s.freeIx
    freeIx := s.freeIx + 1
    execDepth := false
    panel := { s.panel with trapHaltLight := true } }

/-- A trap halt whose store area is present (60_exceptions.md R670, R671). -/
theorem trapHalt_eq {s : State} (hs : s.Alone) (area : s.present 0x530 20 = true) (vector : Addr) :
    s.trapHalt vector = s.haltArea.halted vector := by
  have word0 : s.present 0x530 4 = true := present_part 4 0 area (by decide)
  have word4 : s.present 0x534 4 = true := present_part 4 4 area (by decide)
  have word4' : (s.poke32 0x530 s.psd1Image).present 0x534 4 = true := by
    rw [present_poke32]
    exact word4
  have word8 : s.haltPsd.present 0x538 4 = true := (haltPsd_present s _ _).trans (present_part 4 8 area (by decide))
  have wordC : (s.haltPsd.poke32 0x538 s.statusWord).clearStatus.present 0x53C 4 = true := by
    rw [present_congr (s := s) (by rw [State.clearStatus_cfg, State.poke32_cfg, haltPsd_frame])]
    exact present_part 4 12 area (by decide)
  have word10 : ((s.haltPsd.poke32 0x538 s.statusWord).poke32 0x53C 0).clearStatus.present 0x540 4 = true := by
    rw [present_congr (s := s) (by rw [State.clearStatus_cfg, State.poke32_cfg, State.poke32_cfg, haltPsd_frame])]
    exact present_part 4 16 area (by decide)
  have psd : (if s.mode = .psd then (s.storeOrLose 0x530 s.psd1Image).storeOrLose 0x534 s.psd2Image
      else s.storeOrLose 0x530 s.psd1Image) = s.haltPsd := by
    rw [storeOrLose_alone hs word0, storeOrLose_alone (poke32_alone hs _ _) word4', State.haltPsd]
  have alone8 := poke32_alone (haltPsd_alone hs) 0x538 s.statusWord
  have status : s.haltPsd.storeOrLose 0x538 s.statusWord = s.haltPsd.poke32 0x538 s.statusWord :=
    storeOrLose_alone (haltPsd_alone hs) word8 _
  have zero1 : (s.haltPsd.poke32 0x538 s.statusWord).clearStatus.storeOrLose 0x53C 0 =
      ((s.haltPsd.poke32 0x538 s.statusWord).poke32 0x53C 0).clearStatus := by
    rw [storeOrLose_alone (clearStatus_alone alone8) wordC, poke32_clearStatus]
  have zero2 : ((s.haltPsd.poke32 0x538 s.statusWord).poke32 0x53C 0).clearStatus.storeOrLose 0x540 0 = s.haltArea.clearStatus := by
    rw [storeOrLose_alone (clearStatus_alone (poke32_alone alone8 _ _)) word10, poke32_clearStatus, State.haltArea]
  unfold State.trapHalt
  dsimp only
  rw [psd, status, zero1, zero2]
  rfl

theorem apart_const {x a : Addr} (h : x.toNat + 4 ≤ a.toNat) (ha : a.toNat < 0x1000) : Apart x a := by
  intro j k hj hk
  bv_omega

section
variable {s : State} (hm : Memory.wf s.mem = true)
include hm

theorem haltPsd_wf : Memory.wf s.haltPsd.mem = true := by
  unfold State.haltPsd
  split
  · exact State.poke32_wf (State.poke32_wf hm)
  · exact State.poke32_wf hm

/-- A word below the status word in the store area. -/
theorem haltArea_read {x : Addr} (h : x.toNat + 4 ≤ 0x538) : Memory.read32 s.haltArea.mem x = Memory.read32 s.haltPsd.mem x := by
  have wf := haltPsd_wf hm
  rw [State.haltArea, read32_poke32_ne (State.poke32_wf (State.poke32_wf wf)) (apart_const (by simp; omega) (by decide)),
    read32_poke32_ne (State.poke32_wf wf) (apart_const (by simp; omega) (by decide)),
    read32_poke32_ne wf (apart_const (by simp; omega) (by decide))]

theorem haltArea_psd1 : Memory.read32 s.haltArea.mem 0x530 = s.psd1Image := by
  rw [haltArea_read hm (by decide), State.haltPsd]
  split
  · rw [read32_poke32_ne (State.poke32_wf hm) (apart_const (by decide) (by decide)), read32_poke32 hm]
  · rw [read32_poke32 hm]

theorem haltArea_psd2 : Memory.read32 s.haltArea.mem 0x534 = if s.mode = .psd then s.psd2Image else Memory.read32 s.mem 0x534 := by
  rw [haltArea_read hm (by decide), State.haltPsd]
  split
  · rw [read32_poke32 (State.poke32_wf hm)]
  · rw [read32_poke32_ne hm (Apart.symm (apart_const (by decide) (by decide)))]

theorem haltArea_status : Memory.read32 s.haltArea.mem 0x538 = s.statusWord := by
  have wf := haltPsd_wf hm
  rw [State.haltArea, read32_poke32_ne (State.poke32_wf (State.poke32_wf wf)) (apart_const (by decide) (by decide)),
    read32_poke32_ne (State.poke32_wf wf) (apart_const (by decide) (by decide)), read32_poke32 wf]

theorem poke32_outside {a x : Addr} (v : Word) (h : x.toNat < 0x530 ∨ 0x544 ≤ x.toNat) (lo : 0x530 ≤ a.toNat) (hi : a.toNat ≤ 0x540) :
    Memory.read (s.poke32 a v).mem x.toNat = Memory.read s.mem x.toNat :=
  sameBytesOutside_poke32 hm a v x fun k hk => by bv_omega

theorem haltArea_outside {x : Addr} (h : x.toNat < 0x530 ∨ 0x544 ≤ x.toNat) :
    Memory.read s.haltArea.mem x.toNat = Memory.read s.mem x.toNat := by
  have wf := haltPsd_wf hm
  rw [State.haltArea, poke32_outside (State.poke32_wf (State.poke32_wf wf)) _ h (by decide) (by decide),
    poke32_outside (State.poke32_wf wf) _ h (by decide) (by decide), poke32_outside wf _ h (by decide) (by decide), State.haltPsd]
  split
  · rw [poke32_outside (State.poke32_wf hm) _ h (by decide) (by decide), poke32_outside hm _ h (by decide) (by decide)]
  · rw [poke32_outside hm _ h (by decide) (by decide)]

end

/-- What a trap halt of `s` leaves: the old PSD and the status word in the store area, the vector's address in the
program counter. -/
structure State.HaltOf (s u : State) (vector : Addr) : Prop where
  runState : u.runState = .halt
  pc : u.pc.toNat * 2 = vector.toNat
  psd1 : Memory.read32 u.mem 0x530 = BitVec.ofNat 32 s.psd1Number
  psd2 : Memory.read32 u.mem 0x534 = if s.mode = .psd then s.psd2Image else Memory.read32 s.mem 0x534
  status : Memory.read32 u.mem 0x538 = s.statusWord
  outside : ∀ x : Addr, (x.toNat < 0x530 ∨ 0x544 ≤ x.toNat) → Memory.read u.mem x.toNat = Memory.read s.mem x.toNat
  light : u.panel.trapHaltLight = true
  same : u.regs = s.regs ∧ u.priv = s.priv ∧ u.cc = s.cc ∧ u.ext = s.ext ∧ u.mode = s.mode ∧ u.active = s.active

theorem trapHalt_haltOf {s : State} (hs : s.Alone) (hm : Memory.wf s.mem = true) (area : s.present 0x530 20 = true) {vector : Addr}
    (even : vector.toNat % 2 = 0) (small : vector.toNat < 2 ^ 19) : s.HaltOf (s.trapHalt vector) vector := by
  rw [trapHalt_eq hs area]
  have frame := haltArea_frame s
  exact {
    runState := rfl
    pc := by
      show (vector.extractLsb' 1 18).toNat * 2 = _
      rw [extract_toNat]
      omega
    psd1 := (haltArea_psd1 hm).trans (psd1Image_eq s)
    psd2 := haltArea_psd2 hm
    status := haltArea_status hm
    outside := fun x hx => haltArea_outside hm hx
    light := rfl
    same := ⟨by show s.haltArea.regs = _; rw [frame], by show s.haltArea.priv = _; rw [frame], by show s.haltArea.cc = _; rw [frame],
      by show s.haltArea.ext = _; rw [frame], by show s.haltArea.mode = _; rw [frame], by show s.haltArea.active = _; rw [frame]⟩ }

theorem trapEntry_halt {s : State} {t : Trap} (n : Nat) (arms : t.arming = true) (disabled : s.trapsEnabled = false) :
    trapEntry (n + 1) t s = State.trapHalt { s.orStatus (t.statusBits .psd) with
      blockCount := if t = Trap.blockTimeout then 0 else s.blockCount } t.vector := by
  unfold trapEntry
  dsimp only
  split
  · rfl
  · next go => exact absurd (by rw [State.orStatus_trapsEnabled, arms, disabled]; rfl) go

theorem vector_even (t : Trap) : t.vector.toNat % 2 = 0 := by cases t <;> simp [Trap.vector]
theorem vector_small (t : Trap) : t.vector.toNat < 2 ^ 19 := by cases t <;> simp [Trap.vector]

theorem levelVector_small (l : Level) : (levelVector l).toNat % 2 = 0 ∧ (levelVector l).toNat < 2 ^ 19 := by
  revert l
  decide

/-! ## Interrupt entry in PSW mode -/

/-- What the Store, Place, and Branch sequence for level `l` leaves, the new PSW being `n`. -/
def State.pswDone (s : State) (l : Level) (icb : Addr) (n : Word) : State :=
  { ((s.poke32 icb s.psd1Image).setPsw n).setActive l true with nonint := true }

/-- The machine at the start of an interrupt entry. -/
def State.interruptStart (s : State) (l : Level) : State := (s.setRequesting l false).wake

section
variable {s : State} {l : Level} {v n : Word}

theorem pswSwitch_done {q : State} (hs : q.Alone) (hm : Memory.wf q.mem = true) (hv : q.realRead (levelVector l) = .ok v)
    (hp : q.present (v.extractLsb' 0 24) 4 = true) (hn : q.realRead (v.extractLsb' 0 24 + 4) = .ok n) :
    q.pswSwitch l = .done (q.pswDone l (v.extractLsb' 0 24) n) := by
  have read : (q.poke32 (v.extractLsb' 0 24) q.psd1Image).realRead (v.extractLsb' 0 24 + 4) = .ok n :=
    State.realRead_poke32_ne hm (Apart.symm (apart_4 _)) hn
  rw [State.pswSwitch, switchRead_alone hs hv, vectorAddr, switchWrite_alone hs hp, switchRead_alone (poke32_alone hs _ _) read]
  rfl

theorem interruptEntry_psw (hmode : s.mode = .psw) (h : (s.interruptStart l).pswSwitch l = .done ((s.interruptStart l).pswDone l (v.extractLsb' 0 24) n)) :
    interruptEntry l s = (s.interruptStart l).pswDone l (v.extractLsb' 0 24) n := by
  unfold State.interruptStart at h
  unfold interruptEntry
  dsimp only
  rw [hmode, h]
  rfl

/-- The entry of level `l` in PSW mode: the old PSW in the first word of the block, the new one loaded. -/
structure State.PswEntered (s u : State) (l : Level) (icb : Addr) (n : Word) : Prop where
  psd1 : Memory.read32 u.mem icb = s.psd1Image
  outside : SameBytesOutside s u icb 4
  regs : u.regs = s.regs
  psw : u.priv = n.getLsbD 31 ∧ u.cc = n.extractLsb' 27 4 ∧ u.ext = n.getLsbD 26 ∧ u.hist = n.getLsbD 25 ∧ u.pc = n.extractLsb' 1 18
  requesting : u.requesting = s.requesting &&& ~~~(1#128 <<< l.toNat)
  active : u.active = s.active ||| (1#128 <<< l.toNat)
  nonint : u.nonint = true
  runState : u.runState = s.wake.runState

theorem interruptEntry_pswEntered (hs : s.Alone) (hm : Memory.wf s.mem = true) (hmode : s.mode = .psw)
    (hv : s.realRead (levelVector l) = .ok v) (hp : s.present (v.extractLsb' 0 24) 4 = true)
    (hn : s.realRead (v.extractLsb' 0 24 + 4) = .ok n) : s.PswEntered (interruptEntry l s) l (v.extractLsb' 0 24) n := by
  have read (a : Addr) : (s.interruptStart l).realRead a = s.realRead a := realRead_congr rfl rfl rfl a
  rw [interruptEntry_psw (v := v) (n := n) hmode (pswSwitch_done (q := s.interruptStart l) hs hm ((read _).trans hv)
    ((present_congr (s := s) rfl 4 _).trans hp) ((read _).trans hn))]
  generalize v.extractLsb' 0 24 = icb
  exact {
    psd1 := read32_poke32 (s := s.interruptStart l) hm icb _
    outside := sameBytesOutside_poke32 (s := s.interruptStart l) hm icb (s.interruptStart l).psd1Image
    regs := State.poke32_regs (s.interruptStart l) icb (s.interruptStart l).psd1Image
    psw := ⟨rfl, rfl, rfl, rfl, rfl⟩
    requesting := State.poke32_requesting (s.interruptStart l) icb (s.interruptStart l).psd1Image
    active := congrArg (· ||| _) (State.poke32_active (s.interruptStart l) icb (s.interruptStart l).psd1Image)
    nonint := rfl
    runState := State.poke32_runState (s.interruptStart l) icb (s.interruptStart l).psd1Image }

end

/-! ## Traps in PSW mode -/

theorem higherBusy_iff (s : State) (l : Level) :
    s.higherBusy l = true ↔ ∃ k, k < l.toNat ∧ (s.active.getLsbD k = true ∨ s.requesting.getLsbD k = true) := by
  have below (k : Nat) : (levelBit l - 1).getLsbD k = decide (k < l.toNat) := by
    have hl := l.isLt
    have pos := Nat.two_pow_pos l.toNat
    have lt : 2 ^ l.toNat < 2 ^ 128 := Nat.pow_lt_pow_right (by decide) hl
    have val : (levelBit l - 1).toNat = 2 ^ l.toNat - 1 := by
      rw [BitVec.toNat_sub, levelBit, BitVec.toNat_shiftLeft, Nat.shiftLeft_eq, show (1#128).toNat = 1 from rfl, Nat.one_mul,
        show (1 : BitVec 128).toNat = 1 from rfl, Nat.mod_eq_of_lt lt]
      omega
    rw [BitVec.getLsbD, val, Nat.testBit_two_pow_sub_one]
  have zero : (s.active ||| s.requesting) &&& (levelBit l - 1) = 0 ↔
      ∀ k, ((s.active ||| s.requesting) &&& (levelBit l - 1)).getLsbD k = false := by
    constructor
    · intro h k
      rw [h]
      exact BitVec.getLsbD_zero
    · intro h
      exact BitVec.eq_of_getLsbD_eq fun k _ => (h k).trans BitVec.getLsbD_zero.symm
  rw [State.higherBusy, decide_eq_true_eq, ne_eq, zero, not_forall]
  refine exists_congr fun k => ?_
  rw [BitVec.getLsbD_and, BitVec.getLsbD_or, below, Bool.not_eq_false, Bool.and_eq_true_iff, Bool.or_eq_true_iff, decide_eq_true_eq]
  exact And.comm

theorem raise_psw {s : State} {t : Trap} (hc : s.cfg.role = .cpu) (hm : s.mode = .psw) : raise t s = .next (pswTrap t (s.abandon t)) := by
  unfold raise
  rw [hc, hm]

section
variable {s : State} {t : Trap} {l : Level} (h : t.pswLevel = some l)
include h

theorem pswEnters_eq : s.pswEnters t =
    if s.levelEnabled l = true ∧ l ∈ s.cfg.levels ∧ s.active.getLsbD l.toNat = false ∧ s.higherBusy l = false then some l else none := by
  unfold State.pswEnters
  rw [h]
  dsimp only
  refine if_congr ?_ rfl rfl
  rw [Bool.and_eq_true_iff, Bool.and_eq_true_iff, Bool.and_eq_true_iff, Config.levelConfigured, List.contains_iff_mem, Bool.not_eq_true',
    Bool.not_eq_true', and_assoc, and_assoc]

theorem pswTrap_dropped (drop : ¬(s.levelEnabled l = true ∧ l ∈ s.cfg.levels ∧ s.active.getLsbD l.toNat = false ∧ s.higherBusy l = false)) :
    pswTrap t s = s.orStatus (t.statusBits .psw) := by
  rw [pswTrap, pswEnters_eq h, if_neg drop]

theorem pswTrap_entered (enter : s.levelEnabled l = true ∧ l ∈ s.cfg.levels ∧ s.active.getLsbD l.toNat = false ∧ s.higherBusy l = false) :
    pswTrap t s = interruptEntry l (s.orStatus (t.statusBits .psw)) := by
  rw [pswTrap, pswEnters_eq h, if_pos enter]

end

end Machine

open Machine

/-- Settles O21: by the store area of the trap halt. -/
theorem trapHaltWhileNotEnabled : Obligations.TrapHaltWhileNotEnabled := by
  intro s t hm hs hc hmode arms disabled area
  have word : (State.statusWord { (s.abandon t).orStatus (t.statusBits .psd) with
      blockCount := if t = Trap.blockTimeout then 0 else s.blockCount }) = ((s.status ||| t.statusBits .psd) &&& 0xFFFFFF1E) ||| s.liveBits :=
    trapStart_statusWord (s.abandon t) t
  have halt := trapHalt_haltOf (s := { (s.abandon t).orStatus (t.statusBits .psd) with
    blockCount := if t = Trap.blockTimeout then 0 else s.blockCount }) hs hm.1 area (vector_even t) (vector_small t)
  obtain ⟨regs, priv, cc, ext, mode, -⟩ := halt.same
  refine ⟨_, (raise_psd hc hmode).trans (congrArg _ (trapEntry_halt 3 arms disabled)), halt.runState, halt.pc, halt.psd1,
    halt.psd2.trans (if_pos hmode), halt.status.trans word, halt.outside, regs, priv, cc, ext, mode, halt.light⟩

/-- Settles O22: by when the level of a trap can be acknowledged. -/
theorem trapsInPswMode : Obligations.TrapsInPswMode := by
  intro s t l hc hmode level open_
  have hl : t.pswLevel = some l := by
    rcases level with ⟨⟨f, rfl⟩, rfl⟩ | ⟨⟨f, rfl⟩, rfl⟩ | ⟨rfl, rfl⟩ | ⟨rfl, rfl⟩ | ⟨rfl, rfl⟩ <;> rfl
  refine ⟨fun closed => ?_, fun ⟨enabled, configured, idle, quiet⟩ hm hs v n hv hp hn => ?_⟩
  · have drop : ¬(s.levelEnabled l = true ∧ l ∈ s.cfg.levels ∧ s.active.getLsbD l.toNat = false ∧ s.higherBusy l = false) := by
      rintro ⟨enabled, configured, idle, quiet⟩
      rcases closed with active | disabled | absent | busy
      · rw [idle] at active; cases active
      · rw [enabled] at disabled; cases disabled
      · exact absent configured
      · rw [(higherBusy_iff s l).2 busy] at quiet; cases quiet
    have run : pswTrap t (s.abandon t) = _ := pswTrap_dropped (s := s.abandon t) hl drop
    exact ⟨_, (raise_psw hc hmode).trans (congrArg _ run), rfl, rfl, rfl, rfl, rfl, rfl, rfl, status_set _ _⟩
  · have quiet : s.higherBusy l = false := by
      refine Bool.eq_false_iff.2 fun busy => ?_
      obtain ⟨k, lt, active | requesting⟩ := (higherBusy_iff s l).1 busy
      · rw [idle k lt.le] at active; cases active
      · rw [quiet k lt] at requesting; cases requesting
    have run : pswTrap t (s.abandon t) = _ :=
      pswTrap_entered (s := s.abandon t) hl ⟨enabled, configured, idle l.toNat (Nat.le_refl _), quiet⟩
    have entered := interruptEntry_pswEntered (s := (s.abandon t).orStatus (t.statusBits .psw)) hs hm.1 hmode hv hp hn
    obtain ⟨priv, cc, ext, hist, pc⟩ := entered.psw
    exact ⟨_, (raise_psw hc hmode).trans (congrArg _ run), entered.regs, entered.psd1.trans (psd1Image_eq _), entered.outside,
      priv, cc, ext, pc, entered.active, entered.requesting, entered.nonint⟩

/-- Settles O26: the boundary acknowledges the level. -/
theorem interruptEntryInPswMode : Obligations.InterruptEntryInPswMode := by
  intro s l v n hm hs hq hc hmode hr hnonint hl hv hp hn
  have at_ : boundary s = .entered (.next (interruptEntry l s)) := by
    rw [boundary_quiet hq hc, cpuInterrupts, hnonint, if_neg Bool.false_ne_true, if_neg (by rw [hmode]; exact fun h => nomatch h.1), hl]
  obtain ⟨sp, step⟩ := step_of_entered hq.1 hr at_
  have entered := interruptEntry_pswEntered hs hm.1 hmode hv hp hn
  obtain ⟨priv, cc, ext, hist, pc⟩ := entered.psw
  refine ⟨_, step, entered.psd1.trans (psd1Image_eq s), entered.outside, entered.regs, entered.runState.trans ?_, priv, cc, ext, hist, pc,
    entered.requesting, entered.active, entered.nonint⟩
  unfold State.wake
  rcases hr with hr | hr <;> rw [hr]

end Sys2Proof
end

section
/-! PROOFS. Interrupt entry in PSD mode (60_exceptions.md R651, R652). -/

namespace Sys2Proof
namespace Machine

/-! ## States that differ in memory alone -/

/-- `t` is `s` but for memory, and for which bytes are in error. -/
def State.MemFrame (s t : State) : Prop := t = { s with mem := t.mem, parityBad := t.parityBad }

theorem State.MemFrame.refl (s : State) : s.MemFrame s := rfl

theorem State.MemFrame.poke32 {s t : State} (h : s.MemFrame t) (a : Addr) (v : Word) : s.MemFrame (t.poke32 a v) :=
  memFrame_trans h (memFrame_poke32 t a v)

theorem State.MemFrame.realWriteOrLose {s t : State} (h : s.MemFrame t) (a : Addr) (v : Word) : s.MemFrame (t.realWriteOrLose a v) := by
  unfold State.realWriteOrLose
  split
  · exact h.poke32 a v
  · exact h

theorem State.MemFrame.trans {s t u : State} (h : s.MemFrame t) (k : t.MemFrame u) : s.MemFrame u := memFrame_trans h k

theorem State.MemFrame.alone {s t : State} (h : s.MemFrame t) (hs : s.Alone) : t.Alone := by
  rw [h]
  exact hs

theorem State.SameStore.realWriteOrLose {s t : State} (h : s.SameStore t) (a : Addr) (v : Word) :
    (s.realWriteOrLose a v).SameStore (t.realWriteOrLose a v) := by
  rw [State.realWriteOrLose, State.realWriteOrLose, present_congr h.cfg]
  split
  · exact h.poke32 a v
  · exact h

/-- What a map walk reads, of two machines that stored the same. -/
theorem sameWalk_of_frames {s q a t : State} (same : a.SameStore t) (fa : s.MemFrame a) (ft : q.MemFrame t) (list : q.mplAddr = s.mplAddr)
    (map : q.map = s.map) : a.SameWalk t where
  mem := same.mem
  cfg := same.cfg
  parity := same.parity
  list := by
    have ha : a.mplAddr = s.mplAddr := by rw [fa]; rfl
    have ht : t.mplAddr = q.mplAddr := by rw [ft]; rfl
    rw [ht, list, ha]
  map := by
    have ha : a.map = s.map := by rw [fa]
    have ht : t.map = q.map := by rw [ft]
    rw [ht, map, ha]

/-! ## The end of the entry -/

/-- What an interrupt entry of PSD mode leaves after its stores. -/
def State.levelDone (t : State) (l : Level) (n1 n2 : Word) (m : Vector Half 32) : State :=
  { State.markEntered { t.setPsd n1 n2 with map := m } l n2 with execDepth := false }

section
variable {s q t : State} {l : Level} {v n1 n2 : Word} {m : Vector Half 32}

/-- The switch, given what its stores leave. -/
theorem interruptSwitch_done (hq : q.Alone) (hv : q.realRead (levelVector l) = .ok v)
    (store : ∀ k, q.storeOldPsd (v.extractLsb' 0 24) (fun s1 => s1.storeChannelStatus l (v.extractLsb' 0 24) k) = k t) (ht : t.Alone)
    (r1 : t.realRead (v.extractLsb' 0 24 + 8) = .ok n1) (r2 : t.realRead (v.extractLsb' 0 24 + 12) = .ok n2) (new : t.NewMap n2 m) :
    State.afterSwitch (q.interruptSwitch l) = t.levelDone l n1 n2 m := by
  rw [State.interruptSwitch, switchRead_alone hq hv, vectorAddr, store, switchRead_alone ht r1, switchRead_alone ht r2,
    loadPsd_newMap n1 ht new]
  rfl

theorem interruptEntry_psd (hm : s.mode = .psd) : interruptEntry l s = State.afterSwitch ((s.interruptStart l).interruptSwitch l) := by
  unfold interruptEntry
  rw [hm]
  rfl

theorem markEntered_eq (u : State) (n2 : Word) : u.markEntered l n2 =
    if n2.toNat / 0x4000 % 4 = 1 then u else { u with active := u.active ||| (1#128 <<< l.toNat), nonint := true } := by
  have bits : n2.extractLsb' 14 2 = 0b01#2 ↔ n2.toNat / 0x4000 % 4 = 1 := by
    rw [BitVec.toNat_eq, extract_toNat]
    exact Iff.rfl
  rw [State.markEntered]
  simp only [bits]
  rfl

/-- What an entry of level `l` in PSD mode leaves of the processor. -/
structure State.LevelEntered (s u : State) (l : Level) (n1 n2 : Word) (m : Vector Half 32) : Prop where
  psd : u.LoadedPsd s n1 n2
  regs : u.regs = s.regs
  map : u.map = m
  runState : u.runState = s.wake.runState
  requesting : u.requesting = s.requesting &&& ~~~(1#128 <<< l.toNat)
  enabled : u.enabled = s.enabled
  mark : if n2.toNat / 0x4000 % 4 = 1 then u.active = s.active ∧ u.nonint = s.nonint
    else u.active = s.active ||| (1#128 <<< l.toNat) ∧ u.nonint = true

theorem levelDone_entered {f : Nat} (h : State.MemFrame { s.interruptStart l with freeIx := f } t) : s.LevelEntered (t.levelDone l n1 n2 m) l n1 n2 m := by
  have blocked : t.blocked = s.blocked := by rw [h]; rfl
  have mode : t.mode = s.mode := by rw [h]; rfl
  have regs : t.regs = s.regs := by rw [h]; rfl
  have run : t.runState = s.wake.runState := by rw [h]; rfl
  have requesting : t.requesting = s.requesting &&& ~~~(1#128 <<< l.toNat) := by rw [h]; rfl
  have enabled : t.enabled = s.enabled := by rw [h]; rfl
  have active : t.active = s.active := by rw [h]; rfl
  have nonint : t.nonint = s.nonint := by rw [h]; rfl
  have loaded := loadedPsd_of n1 n2 m blocked mode
  rw [State.levelDone, markEntered_eq]
  split
  · next one => exact ⟨loaded, regs, rfl, run, requesting, enabled, by rw [if_pos one]; exact ⟨active, nonint⟩⟩
  · next other =>
    exact ⟨loaded, regs, rfl, run, requesting, enabled, by rw [if_neg other]; exact ⟨congrArg (· ||| _) active, rfl⟩⟩

theorem levelDone_mem : (t.levelDone l n1 n2 m).mem = t.mem := by
  rw [State.levelDone, markEntered_eq]
  split <;> rfl

end

/-! ## The stores of an entry -/

/-- The two writes of a channel's status words. -/
def State.statusStored (t : State) (st : ChannelStatus) : State :=
  (State.realWriteOrLose { t with freeIx := t.freeIx + 1 } st.addr (st.word1 &&& 0xFFFFFFFC)).realWriteOrLose (st.addr + 4) st.word2

/-- And their address in word 6 of the block. -/
def State.channelStored (t : State) (icb : Addr) (st : ChannelStatus) : State :=
  (t.statusStored st).poke32 (icb + 20) (BitVec.ofNat 32 st.addr.toNat)

theorem statusStored_frame (t : State) (st : ChannelStatus) : State.MemFrame { t with freeIx := t.freeIx + 1 } (t.statusStored st) :=
  (State.MemFrame.realWriteOrLose (.refl _) _ _).realWriteOrLose _ _

theorem takeChannelStatus_eq (t : State) (d : BitVec 7) :
    t.takeChannelStatus d = (t.statusStored (Config.channelStatus t.freeIx d), (Config.channelStatus t.freeIx d).addr) := rfl

theorem switchWrite_channel {t : State} {icb : Addr} (ht : t.Alone) (h : t.present (icb + 20) 4 = true) (d : BitVec 7) (k : State → Switch) :
    (t.takeChannelStatus d).1.switchWrite (icb + 20) (BitVec.zeroExtend 32 (t.takeChannelStatus d).2) k =
      k (t.channelStored icb (Config.channelStatus t.freeIx d)) := by
  have frame := statusStored_frame t (Config.channelStatus t.freeIx d)
  have there : (t.statusStored (Config.channelStatus t.freeIx d)).present (icb + 20) 4 = true :=
    (present_congr (s := t) (by rw [frame]) 4 _).trans h
  rw [takeChannelStatus_eq, switchWrite_alone (frame.alone ht) there, zeroExtend_eq_ofNat]
  rfl

section
variable {s q : State} {l : Level} {icb : Addr} (hq : q.Alone) (h1 : q.present icb 4 = true) (h2 : q.present (icb + 4) 4 = true)
include hq h1 h2

theorem stores_plain (none_ : Config.classFLevel q.cfg l = none) (k : State → Switch) :
    q.storeOldPsd icb (fun s1 => s1.storeChannelStatus l icb k) = k ((q.poke32 icb q.psd1Image).poke32 (icb + 4) q.psd2Image) := by
  have cfg : ((q.poke32 icb q.psd1Image).poke32 (icb + 4) q.psd2Image).cfg = q.cfg := by rw [State.poke32_cfg, State.poke32_cfg]
  rw [storeOldPsd_done hq h1 h2, State.storeChannelStatus, cfg, none_]

theorem stores_channel {ch : Channel} (some_ : Config.classFLevel q.cfg l = some ch) (h3 : q.present (icb + 20) 4 = true)
    (k : State → Switch) : q.storeOldPsd icb (fun s1 => s1.storeChannelStatus l icb k) =
      k (((q.poke32 icb q.psd1Image).poke32 (icb + 4) q.psd2Image).channelStored icb (Config.channelStatus q.freeIx ch.device)) := by
  have frame : q.MemFrame ((q.poke32 icb q.psd1Image).poke32 (icb + 4) q.psd2Image) := (State.MemFrame.poke32 (.refl _) _ _).poke32 _ _
  rw [storeOldPsd_done hq h1 h2]
  generalize (q.poke32 icb q.psd1Image).poke32 (icb + 4) q.psd2Image = t at frame ⊢
  have cfg : t.cfg = q.cfg := by rw [frame]
  have ix : t.freeIx = q.freeIx := by rw [frame]
  rw [State.storeChannelStatus, cfg, some_, ← ix]
  exact switchWrite_channel (frame.alone hq) ((present_congr cfg 4 _).trans h3) _ k

end

/-- A quiet boundary acknowledges a level in PSD mode. -/
theorem step_interrupt {s : State} {l : Level} (hq : s.Quiet) (hc : s.cfg.role = .cpu) (hr : s.runState = .run ∨ s.runState = .wait)
    (hnonint : s.nonint = false) (hb : s.blocked = false) (hl : s.eligible = some l) :
    ∃ sp, step s = .next { interruptEntry l s with spad := sp } := by
  refine step_of_entered hq.1 hr ?_
  rw [boundary_quiet hq hc, cpuInterrupts, hnonint, if_neg Bool.false_ne_true, if_neg (by rw [hb]; exact fun h => nomatch h.2), hl]

end Machine

open Machine

/-- Settles O25: by the stores of the entry, with a Class F channel's between the old PSD and the new. -/
theorem interruptEntryInPsdMode : Obligations.InterruptEntryInPsdMode := by
  intro s l v n1 n2 m hm hs hq hc hmode hr hnonint hb hl hv icb first enters p1 p2
  obtain ⟨sp, run⟩ := step_interrupt hq hc hr hnonint hb hl
  have store : s.SameStore (s.interruptStart l) := ⟨rfl, rfl, rfl⟩
  have wake : s.wake.runState = .run := by
    unfold State.wake
    rcases hr with hr | hr <;> rw [hr]
  have entered {t : State} {f : Nat} (frame : State.MemFrame { s.interruptStart l with freeIx := f } t) :
      enters { t.levelDone l n1 n2 m with spad := sp } := by
    have h := levelDone_entered (n1 := n1) (n2 := n2) (m := m) frame
    refine ⟨h.psd, h.regs, h.map, h.runState.trans wake, h.requesting, h.enabled, ?_⟩
    have mark := h.mark
    rw [hnonint] at mark
    exact mark
  have same : first.SameStore (((s.interruptStart l).poke32 icb (s.interruptStart l).psd1Image).poke32 (icb + 4) (s.interruptStart l).psd2Image) := by
    rw [show (s.interruptStart l).psd1Image = BitVec.ofNat 32 s.psd1Number from psd1Image_eq s]
    exact (store.poke32 _ _).poke32 _ _
  have frame : (s.interruptStart l).MemFrame
      (((s.interruptStart l).poke32 icb (s.interruptStart l).psd1Image).poke32 (icb + 4) (s.interruptStart l).psd2Image) :=
    (State.MemFrame.poke32 (.refl _) _ _).poke32 _ _
  have frame1 : s.MemFrame first := (State.MemFrame.poke32 (.refl _) _ _).poke32 _ _
  have plain := stores_plain (q := s.interruptStart l) (l := l) hs ((present_congr rfl 4 _).trans p1) ((present_congr rfl 4 _).trans p2)
  have channel := @stores_channel (s.interruptStart l) l icb hs ((present_congr rfl 4 _).trans p1) ((present_congr rfl 4 _).trans p2)
  generalize ((s.interruptStart l).poke32 icb (s.interruptStart l).psd1Image).poke32 (icb + 4) (s.interruptStart l).psd2Image = t
    at same frame plain channel
  have hv' : (s.interruptStart l).realRead (levelVector l) = .ok v := (store.read _).trans hv
  constructor
  · intro none_ r1 r2 new
    have walk : first.SameWalk t := sameWalk_of_frames same frame1 frame rfl rfl
    have old {x : Addr} {w : Word} (a0 : Apart x icb) (a4 : Apart x (icb + 4)) (h : s.realRead x = .ok w) : t.realRead x = .ok w :=
      (same.read _).trans (State.realRead_poke32_ne (State.poke32_wf hm.1) a4 (State.realRead_poke32_ne hm.1 a0 h))
    have switch := interruptSwitch_done (q := s.interruptStart l) (l := l) hs hv' (plain none_) (frame.alone hs) (old (apart_8 icb) (apart_8_4 icb) r1)
      (old (apart_12 icb) (apart_12_4 icb) r2) (by rw [walk.newMap]; exact new)
    rw [interruptEntry_psd hmode, switch] at run
    have mem : (t.levelDone l n1 n2 m).mem = first.mem := levelDone_mem.trans same.mem
    refine ⟨_, run, ⟨?_, ?_⟩, ?_, entered frame⟩
    · show Memory.read32 (t.levelDone l n1 n2 m).mem icb = _
      rw [mem]
      exact (read32_poke32_ne (State.poke32_wf hm.1) (apart_4 icb) _).trans (read32_poke32 hm.1 _ _)
    · show Memory.read32 (t.levelDone l n1 n2 m).mem (icb + 4) = _
      rw [mem]
      exact read32_poke32 (State.poke32_wf hm.1) _ _
    · intro x hx
      show Memory.read (t.levelDone l n1 n2 m).mem x.toNat = _
      rw [mem]
      exact sameBytesOutside_oldPsd icb hm.1 _ _ x hx
  · intro ch some_ p3 st second r1 r2 new
    have same2 : second.SameStore (t.channelStored icb st) :=
      ((State.SameStore.realWriteOrLose (t := { t with freeIx := t.freeIx + 1 }) ⟨same.mem, same.cfg, same.parity⟩ _ _).realWriteOrLose _ _).poke32 _ _
    have frame2 : State.MemFrame { s.interruptStart l with freeIx := t.freeIx + 1 } (t.channelStored icb st) := by
      have one : State.MemFrame { s.interruptStart l with freeIx := t.freeIx + 1 } { t with freeIx := t.freeIx + 1 } := by
        rw [State.MemFrame]
        rw [frame]
      exact State.MemFrame.poke32 (one.trans (statusStored_frame t st)) _ _
    have frame3 : s.MemFrame second := ((frame1.realWriteOrLose _ _).realWriteOrLose _ _).poke32 _ _
    have walk : second.SameWalk (t.channelStored icb st) := sameWalk_of_frames same2 frame3 frame2 rfl rfl
    have switch := interruptSwitch_done (q := s.interruptStart l) (l := l) hs hv' (channel some_ ((present_congr rfl 4 _).trans p3)) (frame2.alone hs)
      ((same2.read _).trans r1) ((same2.read _).trans r2) ((walk.newMap n2 m).mpr new)
    rw [interruptEntry_psd hmode, switch] at run
    have mem : ((t.channelStored icb st).levelDone l n1 n2 m).mem = second.mem := levelDone_mem.trans same2.mem
    refine ⟨_, run, mem, ?_, entered frame2⟩
    show Memory.read32 ((t.channelStored icb st).levelDone l n1 n2 m).mem (icb + 20) = _
    rw [mem]
    exact read32_poke32 (State.realWriteOrLose_wf (State.realWriteOrLose_wf (State.poke32_wf (State.poke32_wf hm.1)))) _ _

end Sys2Proof
end

section
/-! PROOFS. Memory errors in an entry (60_exceptions.md R632, R670, R671). -/

namespace Sys2Proof
namespace Machine

/-! ## Where a context switch stops -/

section
variable {r : State} {e : MemError} {icb : Addr} {map : Vector Half 32}

/-- A memory error on the new PSD or in its map walk; `g` is what follows the load. -/
theorem newPsd_fails (hr : r.Alone) (h : r.NewPsdFails e icb map) (g : Word → Switch → Switch) (hg : ∀ w t, g w (.memory e t) = .memory e t) :
    (r.switchRead (icb + 8) fun s1 n1 => s1.switchRead (icb + 12) fun s2 n2 => g n2 (s2.loadPsd true n1 n2)) = .memory e { r with map := map } := by
  rcases h with ⟨bad, rfl⟩ | ⟨n1, r1, ⟨bad, rfl⟩ | ⟨n2, r2, walks, fails⟩⟩
  · rw [switchRead_alone_error hr bad]
  · rw [switchRead_alone hr r1, switchRead_alone_error hr bad]
  · rw [switchRead_alone hr r1, switchRead_alone hr r2, loadPsd_walkFails n1 hr walks fails, hg]

theorem enterNewPsd_fails (hr : r.Alone) (h : r.NewPsdFails e icb map) : r.enterNewPsd icb = .memory e { r with map := map } :=
  newPsd_fails hr h (fun _ w => w) fun _ _ => rfl

theorem State.SameWalk.newPsdFails {s t : State} (h : s.SameWalk t) : t.NewPsdFails e icb map = s.NewPsdFails e icb map := by
  simp only [State.NewPsdFails, h.read, h.walkFails, h.map]

end

section
variable {s p : State} {a b c : Addr} {w1 w2 w3 : Word}

theorem storesStop_pair : StoresStop [(a, w1), (b, w2)] s p →
    (s.present a 4 = false ∧ p = s) ∨ (s.present a 4 = true ∧ s.present b 4 = false ∧ p = s.poke32 a w1) := by
  intro h
  unfold StoresStop at h
  split at h
  · next there =>
    unfold StoresStop at h
    rw [present_poke32] at h
    split at h
    · exact h.elim
    · next absent => exact .inr ⟨there, Bool.eq_false_iff.2 absent, h⟩
  · next absent => exact .inl ⟨Bool.eq_false_iff.2 absent, h⟩

theorem storesStop_triple : StoresStop [(a, w1), (b, w2), (c, w3)] s p →
    (s.present a 4 = false ∧ p = s) ∨ (s.present a 4 = true ∧ s.present b 4 = false ∧ p = s.poke32 a w1) ∨
      (s.present a 4 = true ∧ s.present b 4 = true ∧ s.present c 4 = false ∧ p = (s.poke32 a w1).poke32 b w2) := by
  intro h
  unfold StoresStop at h
  split at h
  · next there =>
    rcases storesStop_pair h with ⟨absent, rfl⟩ | ⟨there2, absent, rfl⟩
    · rw [present_poke32] at absent
      exact .inr (.inl ⟨there, absent, rfl⟩)
    · rw [present_poke32] at there2 absent
      exact .inr (.inr ⟨there, there2, absent, rfl⟩)
  · next absent => exact .inl ⟨Bool.eq_false_iff.2 absent, h⟩

end

/-- `q` is at the start of an entry of `s`: the status word, the run state and the requests apart, it is `s`. -/
structure State.EntryOf (s q : State) : Prop where
  store : s.SameStore q
  alone : q.Alone
  psd1 : q.psd1Image = s.psd1Image
  psd2 : q.psd2Image = s.psd2Image
  blocked : q.blocked = s.blocked
  mode : q.mode = s.mode
  trapsEnabled : q.trapsEnabled = s.trapsEnabled
  live : q.liveBits = s.liveBits
  regs : q.regs = s.regs
  map : q.map = s.map
  active : q.active = s.active
  priv : q.priv = s.priv
  cc : q.cc = s.cc
  spad : ∀ i (hi : i < 256), i ≠ 0x91 → q.spad[i] = s.spad[i]

/-- `r` is where the entry of `q` stops: memory as `p` has it, the map `map`, the status word's error bits cleared
where `cleared` says so. -/
structure State.Stops (q p r : State) (map : Vector Half 32) (cleared : Bool) : Prop where
  wf : Memory.wf p.mem = true
  store : p.SameStore r
  frame : r = { q with
    mem := r.mem, parityBad := r.parityBad, map := map, spad := if cleared then q.clearStatus.spad else q.spad }

theorem State.MemFrame.stops {q p r : State} (h : q.MemFrame r) (wf : Memory.wf p.mem = true) (store : p.SameStore r) :
    q.Stops p r q.map false := ⟨wf, store, h⟩

section
variable {s q p : State} {e : MemError} {map : Vector Half 32}

/-- The stores of the old PSD, up to the one that meets absent memory. -/
theorem storeOldPsd_stops (h : s.EntryOf q) (hm : Memory.wf s.mem = true) {icb : Addr} {k : State → Switch}
    (stop : (s.present icb 4 = false ∧ p = s) ∨
      (s.present icb 4 = true ∧ s.present (icb + 4) 4 = false ∧ p = s.poke32 icb (BitVec.ofNat 32 s.psd1Number))) :
    ∃ r, q.storeOldPsd icb k = .memory .nonpresent r ∧ q.Stops p r s.map false := by
  have there (a : Addr) : q.present a 4 = s.present a 4 := present_congr h.store.cfg 4 a
  rw [← h.map]
  rcases stop with ⟨absent, rfl⟩ | ⟨p1, absent, rfl⟩
  · exact ⟨q, by rw [State.storeOldPsd, switchWrite_alone_absent h.alone ((there icb).trans absent)],
      (State.MemFrame.refl q).stops hm h.store⟩
  · refine ⟨q.poke32 icb q.psd1Image, ?_, ((State.MemFrame.refl q).poke32 _ _).stops (State.poke32_wf hm) ?_⟩
    · rw [State.storeOldPsd, switchWrite_alone h.alone ((there icb).trans p1)]
      exact switchWrite_alone_absent (poke32_alone h.alone _ _) (by rw [present_poke32, there]; exact absent) _ _
    · rw [h.psd1, psd1Image_eq]
      exact h.store.poke32 _ _

/-- A trap entry that meets a memory error (60_exceptions.md R632, R653, R655). -/
theorem trapSwitch_stops (h : s.EntryOf q) (hm : Memory.wf s.mem = true) {vector : Addr} {fifth : Word} {stored : Bool}
    (word : q.statusWord = fifth) (low : q.status &&& 0xFF = s.status &&& 0xFF) (fails : s.TrapFails e vector fifth p stored map) :
    ∃ r, q.trapSwitch vector = .memory e r ∧ q.Stops p r map stored := by
  have there (a : Addr) : q.present a 4 = s.present a 4 := present_congr h.store.cfg 4 a
  rcases fails with ⟨bad, rfl, rfl, rfl⟩ | ⟨v, hv, ⟨rfl, rfl, rfl, stop⟩ | ⟨p1, p2, p3, rfl, rfl, fails⟩⟩
  · refine ⟨q, ?_, ?_⟩
    · rw [State.trapSwitch, switchRead_alone_error h.alone ((h.store.read _).trans bad)]
    · rw [← h.map]
      exact (State.MemFrame.refl q).stops hm h.store
  · rw [State.trapSwitch, switchRead_alone h.alone ((h.store.read _).trans hv)]
    rw [vectorAddr]
    rcases storesStop_triple stop with one | two | ⟨p1, p2, absent, rfl⟩
    · exact storeOldPsd_stops h hm (.inl one)
    · exact storeOldPsd_stops h hm (.inr two)
    · refine ⟨(q.poke32 (v.extractLsb' 0 24) q.psd1Image).poke32 (v.extractLsb' 0 24 + 4) q.psd2Image, ?_, ?_⟩
      · rw [storeOldPsd_done h.alone ((there _).trans p1) ((there _).trans p2), State.storeStatus]
        refine switchWrite_alone_absent (poke32_alone (poke32_alone h.alone _ _) _ _) ?_ _ _
        rw [present_poke32, present_poke32, there]
        exact absent
      · rw [← h.map]
        refine (((State.MemFrame.refl q).poke32 _ _).poke32 _ _).stops (State.poke32_wf (State.poke32_wf hm)) ?_
        rw [h.psd1, h.psd2, psd1Image_eq]
        exact (h.store.poke32 _ _).poke32 _ _
  · have enter : q.Entering s s := ⟨hm, h.alone, h.store.mem, h.store.cfg, h.store.parity, h.psd1.trans (psd1Image_eq s), h.psd2⟩
    have store := enter.block_store (icb := v.extractLsb' 0 24) fifth
    have frame0 : s.withBlock s (v.extractLsb' 0 24) fifth =
        (s.storedPsd s (v.extractLsb' 0 24)).poke32 (v.extractLsb' 0 24 + 16) fifth := by
      rw [State.withBlock, State.block, State.storedPsd]
    have frame := block_frame q (v.extractLsb' 0 24) q.psd1Image q.psd2Image q.statusWord
    have run : q.trapSwitch vector =
        (q.block (v.extractLsb' 0 24) q.psd1Image q.psd2Image q.statusWord).clearStatus.enterNewPsd (v.extractLsb' 0 24) := by
      have there3 : ((q.poke32 (v.extractLsb' 0 24) q.psd1Image).poke32 (v.extractLsb' 0 24 + 4) q.psd2Image).present
          (v.extractLsb' 0 24 + 16) 4 = true := by
        rw [present_poke32, present_poke32, there]
        exact p3
      rw [State.trapSwitch, switchRead_alone h.alone ((h.store.read _).trans hv), vectorAddr,
        storeOldPsd_done h.alone ((there _).trans p1) ((there _).trans p2),
        storeStatus_done (poke32_alone (poke32_alone h.alone _ _) _ _) there3, statusWord_poke32, statusWord_poke32, State.block]
    rw [word] at run frame
    rw [← frame0] at fails ⊢
    generalize hr : q.block (v.extractLsb' 0 24) q.psd1Image q.psd2Image fifth = r at store run frame
    generalize hp : s.withBlock s (v.extractLsb' 0 24) fifth = p at store fails ⊢
    have framep : s.MemFrame p := by rw [← hp]; exact block_frame _ _ _ _ _
    have cleared : r.clearStatus.spad = q.clearStatus.spad := by rw [frame]; rfl
    have cell (i : Nat) (hi : i < 256) : r.clearStatus.spad[i] = (s.spad.set 0x91 (s.status &&& 0xFF))[i] := by
      simp only [cleared]
      show (q.spad.set 0x91 (q.status &&& 0xFF))[i] = _
      by_cases status : i = 0x91
      · subst status
        rw [Vector.getElem_set_self, Vector.getElem_set_self, low]
      · rw [spad_set_ne _ _ i hi status, spad_set_ne _ _ i hi status, h.spad i hi status]
    have walk : State.SameWalk { p with spad := s.spad.set 0x91 (s.status &&& 0xFF) } r.clearStatus := by
      have cfg : r.clearStatus.cfg = p.cfg := store.cfg
      refine ⟨store.mem, store.cfg, store.parity, ?_, ?_⟩
      · simp only [State.mplAddr, cfg, cell]
      · have hr : r.clearStatus.map = q.map := by rw [frame]; rfl
        have hp : p.map = s.map := by rw [framep]
        exact hr.trans (h.map.trans hp.symm)
    have alone : r.clearStatus.Alone := by
      have : r.Alone := by rw [frame]; exact h.alone
      exact this
    refine ⟨{ r.clearStatus with map := map }, ?_, ?_⟩
    · rw [run]
      exact enterNewPsd_fails alone ((walk.newPsdFails).mpr fails)
    · refine ⟨?_, ⟨store.mem, store.cfg, store.parity⟩, ?_⟩
      · show Memory.wf p.mem = true
        rw [← hp, frame0, State.storedPsd]
        exact State.poke32_wf (State.poke32_wf (State.poke32_wf hm))
      · rw [if_pos rfl]
        conv_lhs => rw [frame]
        rfl

end

/-! ## The requests of an entry -/

/-- The requests in the state a context switch ends in are `r`. -/
def Switch.Requests (r : BitVec 128) : Switch → Prop
  | .done t => t.requesting = r
  | .memory _ t => t.requesting = r
  | .overflow t => t.requesting = r

section
variable {r : BitVec 128} {s : State}

theorem requests_reading : Reading fun s t : State => t.requesting = s.requesting where
  refl _ := rfl
  trans h k := k.trans h
  marks _ _ _ _ _ _ _ := rfl
  arith _ _ := rfl
  transact s := State.transact_requesting s

theorem requests_read (h : s.requesting = r) {a : Addr} {k : State → Word → Switch} (hk : ∀ t w, t.requesting = r → (k t w).Requests r) :
    (s.switchRead a k).Requests r := by
  have ht := (State.transact_requesting s).trans h
  unfold State.switchRead
  dsimp only
  split
  · exact ht
  · exact hk _ _ ht

theorem requests_write (h : s.requesting = r) {a : Addr} {w : Word} {k : State → Switch} (hk : ∀ t, t.requesting = r → (k t).Requests r) :
    (s.switchWrite a w k).Requests r := by
  have ht := (State.transact_requesting s).trans h
  cases there : s.transact.present a 4 with
  | true => rw [State.switchWrite_ok there]; exact hk _ ((State.poke32_requesting _ _ _).trans ht)
  | false => rw [State.switchWrite_error there]; exact ht

theorem requests_loadPsd (h : s.requesting = r) (full : Bool) (n1 n2 : Word) : (s.loadPsd full n1 n2).Requests r := by
  have hw := (requests_reading.mapWalk s n2).trans h
  unfold State.loadPsd
  split
  · dsimp only
    split
    · exact hw
    · exact hw
    · exact hw
  · exact h

theorem requests_enterNewPsd (h : s.requesting = r) (icb : Addr) : (s.enterNewPsd icb).Requests r :=
  requests_read h fun _ _ h1 => requests_read h1 fun _ _ h2 => requests_loadPsd h2 _ _ _

theorem requests_trapSwitch (h : s.requesting = r) (v : Addr) : (s.trapSwitch v).Requests r :=
  requests_read h fun _ _ h1 => requests_write h1 fun _ h2 => requests_write h2 fun _ h3 => requests_write h3 fun t h4 =>
    requests_enterNewPsd (s := t.clearStatus) h4 _

theorem storeOrLose_requesting (s : State) (a : Addr) (v : Word) : (s.storeOrLose a v).requesting = s.requesting := by
  unfold State.storeOrLose State.realWriteOrLose
  split
  · rw [State.poke32_requesting, State.transact_requesting]
  · rw [State.transact_requesting]

theorem trapHalt_requesting (s : State) (v : Addr) : (s.trapHalt v).requesting = s.requesting := by
  show ((((if s.mode = .psd then (s.storeOrLose 0x530 s.psd1Image).storeOrLose 0x534 s.psd2Image
    else s.storeOrLose 0x530 s.psd1Image).storeOrLose 0x538 s.statusWord).clearStatus.storeOrLose 0x53C 0).storeOrLose 0x540 0).requesting = _
  rw [storeOrLose_requesting, storeOrLose_requesting, State.clearStatus_requesting, storeOrLose_requesting]
  split
  · rw [storeOrLose_requesting, storeOrLose_requesting]
  · rw [storeOrLose_requesting]

/-- Whatever an entry meets, it leaves the requests. -/
theorem trapEntry_requesting : ∀ (n : Nat) (t : Trap) (s : State), (trapEntry n t s).requesting = s.requesting
  | 0, t, s => trapHalt_requesting s _
  | n + 1, t, s => by
    have hsw := requests_trapSwitch (r := s.requesting) (s := s.trapStart t) rfl t.vector
    unfold State.trapStart at hsw
    unfold trapEntry
    dsimp only at hsw ⊢
    split
    · exact trapHalt_requesting _ _
    · split
      · next eq => rw [eq] at hsw; exact hsw
      · next eq =>
        rw [eq] at hsw
        split
        · exact (trapHalt_requesting _ _).trans hsw
        · exact (trapEntry_requesting n _ _).trans hsw
      · next eq =>
        rw [eq] at hsw
        split
        · exact (trapEntry_requesting n _ _).trans hsw
        · exact (trapEntry_requesting n _ _).trans hsw

end

end Machine
end Sys2Proof
end

section
/-! PROOFS. The Machine Check that a memory error in an entry becomes, and the trap halt (60_exceptions.md R632, R670,
R671). -/

namespace Sys2Proof
namespace Machine

/-! ## What a trap entry does with a memory error -/

section
variable {s u : State} {e : MemError} (n : Nat)

theorem trapEntry_memory {t : Trap} (ready : s.trapsEnabled = true) (other : ∀ c, t ≠ .machineCheck c)
    (h : (s.trapStart t).trapSwitch t.vector = .memory e u) :
    trapEntry (n + 1) t s = trapEntry n (.machineCheck (.memory e)) (u.noteMemError e) := by
  unfold State.trapStart at h
  conv_lhs => unfold trapEntry
  dsimp only at h ⊢
  split
  · next halts =>
    obtain ⟨-, disabled⟩ := Bool.and_eq_true_iff.1 halts
    rw [State.orStatus_trapsEnabled, ready] at disabled
    cases disabled
  · rw [h]
    dsimp only
    split
    · exact absurd rfl (other _)
    · rfl

theorem trapEntry_memory_check {c : CheckCause} (ready : s.trapsEnabled = true)
    (h : (s.trapStart (.machineCheck c)).trapSwitch 0x184 = .memory e u) :
    trapEntry (n + 1) (.machineCheck c) s = ((u.noteMemError e).orStatus e.statusBits).trapHalt 0x184 := by
  unfold State.trapStart at h
  unfold trapEntry
  dsimp only [Trap.vector] at h ⊢
  split
  · next halts =>
    obtain ⟨-, disabled⟩ := Bool.and_eq_true_iff.1 halts
    rw [State.orStatus_trapsEnabled, ready] at disabled
    cases disabled
  · rw [h]

end

/-! ## The start of an entry -/

theorem entryOf_trapStart {s : State} (hs : s.Alone) (t : Trap) : s.EntryOf ((s.abandon t).trapStart t) where
  store := ⟨rfl, rfl, rfl⟩
  alone := hs
  psd1 := rfl
  psd2 := rfl
  blocked := rfl
  mode := rfl
  trapsEnabled := rfl
  live := rfl
  regs := rfl
  map := rfl
  active := rfl
  priv := rfl
  cc := rfl
  spad i hi ne := spad_set_ne _ _ i hi ne

theorem entryOf_interruptStart {s : State} (hs : s.Alone) (l : Level) : s.EntryOf (s.interruptStart l) where
  store := ⟨rfl, rfl, rfl⟩
  alone := hs
  psd1 := rfl
  psd2 := rfl
  blocked := rfl
  mode := rfl
  trapsEnabled := rfl
  live := rfl
  regs := rfl
  map := rfl
  active := rfl
  priv := rfl
  cc := rfl
  spad _ _ _ := rfl

theorem statusBits_low (t : Trap) : t.statusBits .psd &&& 0xFF = 0 := by
  have one (b : Bool) (x y : Word) (hx : x &&& 0xFF = 0) (hy : y &&& 0xFF = 0) : (if b then x else y) &&& 0xFF = 0 := by
    cases b
    · exact hy
    · exact hx
  cases t with
  | memoryParity f => exact one f _ _ (by decide) (by decide)
  | nonpresent f => exact one f _ _ (by decide) (by decide)
  | undefined => decide
  | machineCheck c =>
    cases c with
    | memory e => cases e <;> decide
    | mapOverflow => decide
  | systemCheck f => exact one f _ _ (by decide) (by decide)
  | mapFault f => exact one f _ _ (by decide) (by decide)
  | powerFail => decide
  | privilege => decide
  | blockTimeout => decide
  | arithmetic => decide
  | endOfIpu => decide

theorem trapStart_status (s : State) (t : Trap) : (s.trapStart t).status = s.status ||| t.statusBits .psd := status_set _ _

theorem trapStart_low (s : State) (t : Trap) : (s.trapStart t).status &&& 0xFF = s.status &&& 0xFF := by
  rw [trapStart_status, or_and, statusBits_low]
  exact BitVec.or_zero

/-! ## The machine where an entry stopped -/

section
variable {s q p r : State} {map : Vector Half 32} {cleared : Bool} (h : s.EntryOf q) (stops : q.Stops p r map cleared)
include h stops

/-- Where an entry stopped, the processor is as it was before, the status word and the map apart. -/
theorem State.Stops.entryOf : r.Alone ∧ r.psd1Image = s.psd1Image ∧ r.psd2Image = s.psd2Image ∧ r.blocked = s.blocked ∧ r.mode = s.mode ∧
    r.trapsEnabled = s.trapsEnabled ∧ r.liveBits = s.liveBits ∧ r.regs = s.regs ∧ r.active = s.active ∧ r.priv = s.priv ∧ r.cc = s.cc := by
  rw [stops.frame]
  exact ⟨h.alone, h.psd1, h.psd2, h.blocked, h.mode, h.trapsEnabled, h.live, h.regs, h.active, h.priv, h.cc⟩

omit h in
theorem State.Stops.map_eq : r.map = map := by rw [stops.frame]

omit h in
theorem State.Stops.requesting : r.requesting = q.requesting := by rw [stops.frame]

omit h in
theorem State.Stops.status : r.status = if cleared then q.status &&& 0xFF else q.status := by
  rw [stops.frame]
  cases cleared
  · rfl
  · exact status_set q _

/-- The Machine Check's own entry. -/
theorem machineCheck_enters {e : MemError} {v n1 n2 : Word} (n : Nat) (enabled : s.trapsEnabled = true) (hv : p.realRead 0x184 = .ok v)
    (b : p.BlockAt (v.extractLsb' 0 24) n1 n2) (keeps : keepsMap n2) :
    trapEntry (n + 1) (.machineCheck (.memory e)) (r.noteMemError e) =
        (r.noteMemError e).trapDone (.machineCheck (.memory e)) (v.extractLsb' 0 24) n1 n2 map ∧
      State.Entering ((r.noteMemError e).trapStart (.machineCheck (.memory e))) p s := by
  obtain ⟨alone, psd1, psd2, -, -, traps, -⟩ := stops.entryOf h
  have enter : State.Entering ((r.noteMemError e).trapStart (.machineCheck (.memory e))) p s :=
    ⟨stops.wf, alone, stops.store.mem, stops.store.cfg, stops.store.parity, psd1.trans (psd1Image_eq s), psd2⟩
  have new : State.NewMap (State.clearStatus (State.block ((r.noteMemError e).trapStart (.machineCheck (.memory e))) (v.extractLsb' 0 24)
      ((r.noteMemError e).trapStart (.machineCheck (.memory e))).psd1Image ((r.noteMemError e).trapStart (.machineCheck (.memory e))).psd2Image
      ((r.noteMemError e).trapStart (.machineCheck (.memory e))).statusWord)) n2 map :=
    .inl ⟨keeps, by
      rw [State.clearStatus_map, block_map]
      exact stops.map_eq.symm⟩
  have switch := enter.trapSwitch (vector := (Trap.machineCheck (.memory e)).vector) hv b new
  exact ⟨trapEntry_done (s := r.noteMemError e) n (fun _ => traps.trans enabled) switch, enter⟩

end

theorem memBits_eq (e : MemError) : e.statusBits = if e = .parity then 0x00800000 else 0x00200000 := by cases e <;> decide

/-- What the Machine Check of a memory error leaves (60_exceptions.md R632): its entry stores the PSD of `s`, the one current
when the entry that failed began. -/
theorem machineCheck_leaves {s q p r : State} {map : Vector Half 32} {cleared : Bool} (h : s.EntryOf q) (stops : q.Stops p r map cleared)
    {e : MemError} {v n1 n2 : Word} (n : Nat) (enabled : s.trapsEnabled = true) (hv : p.realRead 0x184 = .ok v)
    (b : p.BlockAt (v.extractLsb' 0 24) n1 n2) (keeps : keepsMap n2) :
    (trapEntry (n + 1) (.machineCheck (.memory e)) (r.noteMemError e)).LoadedPsd s n1 n2 ∧
      (trapEntry (n + 1) (.machineCheck (.memory e)) (r.noteMemError e)).StoredPsd s (v.extractLsb' 0 24) ∧
      Memory.read32 (trapEntry (n + 1) (.machineCheck (.memory e)) (r.noteMemError e)).mem (v.extractLsb' 0 24 + 16) =
        ((r.status ||| (if e = .parity then 0x00800000 else 0x00200000)) &&& 0xFFFFFF1E) ||| s.liveBits ∧
      SameOutsideBlock p (trapEntry (n + 1) (.machineCheck (.memory e)) (r.noteMemError e)) (v.extractLsb' 0 24) ∧
      (trapEntry (n + 1) (.machineCheck (.memory e)) (r.noteMemError e)).regs = s.regs ∧
      (trapEntry (n + 1) (.machineCheck (.memory e)) (r.noteMemError e)).map = map ∧
      (trapEntry (n + 1) (.machineCheck (.memory e)) (r.noteMemError e)).active = s.active ∧
      (e = .parity → (trapEntry (n + 1) (.machineCheck (.memory e)) (r.noteMemError e)).panel.parityLight = true) := by
  obtain ⟨-, -, -, blocked, mode, -, live, regs, active, -, -⟩ := stops.entryOf h
  obtain ⟨run, enter⟩ := machineCheck_enters (e := e) h stops n enabled hv b keeps
  obtain ⟨psd, read, outside⟩ := enter.blockStored
    (trapDone_mem (q := r.noteMemError e) (t := .machineCheck (.memory e)) (icb := v.extractLsb' 0 24) (n1 := n1) (n2 := n2) (m := map))
  have loaded := trapDone_loadedPsd (q := r.noteMemError e) (t := .machineCheck (.memory e)) (icb := v.extractLsb' 0 24) (n1 := n1) (n2 := n2)
    (m := map) (s := s) blocked mode
  have word := trapStart_statusWord (r.noteMemError e) (.machineCheck (.memory e))
  rw [show (r.noteMemError e).liveBits = s.liveBits from live, show (Trap.machineCheck (.memory e)).statusBits .psd = _ from memBits_eq e] at word
  rw [run]
  refine ⟨loaded, psd, read.trans word, outside, (trapDone_regs _ _ _ n1 n2 map).trans regs, rfl, (trapDone_active _ _ _ n1 n2 map).trans active,
    fun parity => ?_⟩
  have panel : ((r.noteMemError e).trapDone (.machineCheck (.memory e)) (v.extractLsb' 0 24) n1 n2 map).panel = (r.noteMemError e).panel :=
    block_panel _ _ _ _ _
  rw [panel, State.noteMemError, decide_eq_true parity]
  exact Bool.or_true _

/-- The trap halt where an entry stopped. -/
theorem halts_where_stopped {s q p r : State} {map : Vector Half 32} {cleared : Bool} (h : s.EntryOf q) (stops : q.Stops p r map cleared)
    (e : MemError) (area : s.present 0x530 20 = true) {vector : Addr} (even : vector.toNat % 2 = 0)
    (small : vector.toNat < 2 ^ 19) :
    State.HaltOf ((r.noteMemError e).orStatus e.statusBits) (((r.noteMemError e).orStatus e.statusBits).trapHalt vector) vector := by
  obtain ⟨alone, -⟩ := stops.entryOf h
  have cfg : r.cfg = s.cfg := by rw [stops.frame]; exact h.store.cfg
  have mem : r.mem = p.mem := stops.store.mem
  have wf : Memory.wf r.mem = true := by rw [mem]; exact stops.wf
  have area' : r.present 0x530 20 = true := (present_congr cfg 20 _).trans area
  exact trapHalt_haltOf (s := (r.noteMemError e).orStatus e.statusBits) alone wf ((present_congr rfl 20 _).trans area') even small

theorem orStatus_statusWord (s : State) (bits : Word) : (s.orStatus bits).statusWord = ((s.status ||| bits) &&& 0xFFFFFF1E) ||| s.liveBits := by
  show (State.status { s with spad := s.spad.set 0x91 (s.status ||| bits) } &&& 0xFFFFFF1E) ||| s.liveBits = _
  rw [status_set]

/-! ## Interrupt entries that stop -/

section
variable {s p : State} {e : MemError} {l : Level}

/-- An interrupt entry of PSD mode that meets a memory error (60_exceptions.md R632). -/
theorem interruptSwitch_stops (hs : s.Alone) (hm : Memory.wf s.mem = true) {map : Vector Half 32} (fails : s.LevelFails e l p map) :
    ∃ r, (s.interruptStart l).interruptSwitch l = .memory e r ∧ (s.interruptStart l).Stops p r map false := by
  have h := entryOf_interruptStart hs l
  have start : (s.interruptStart l).spad = s.spad := rfl
  generalize s.interruptStart l = q at h start ⊢
  have there (a : Addr) : q.present a 4 = s.present a 4 := present_congr h.store.cfg 4 a
  rcases fails with ⟨bad, rfl, rfl⟩ | ⟨v, hv, ⟨rfl, rfl, stop⟩ | ⟨plain, p1, p2, rfl, fails⟩⟩
  · refine ⟨q, ?_, ?_⟩
    · rw [State.interruptSwitch, switchRead_alone_error h.alone ((h.store.read _).trans bad)]
    · rw [← h.map]
      exact (State.MemFrame.refl q).stops hm h.store
  · rw [State.interruptSwitch, switchRead_alone h.alone ((h.store.read _).trans hv)]
    exact storeOldPsd_stops h hm (storesStop_pair stop)
  · have frame : q.MemFrame ((q.poke32 (v.extractLsb' 0 24) q.psd1Image).poke32 (v.extractLsb' 0 24 + 4) q.psd2Image) :=
      ((State.MemFrame.refl q).poke32 _ _).poke32 _ _
    have frame1 : s.MemFrame (s.storedPsd s (v.extractLsb' 0 24)) := ((State.MemFrame.refl s).poke32 _ _).poke32 _ _
    have same : (s.storedPsd s (v.extractLsb' 0 24)).SameStore
        ((q.poke32 (v.extractLsb' 0 24) q.psd1Image).poke32 (v.extractLsb' 0 24 + 4) q.psd2Image) := by
      rw [h.psd1, h.psd2, psd1Image_eq]
      exact (h.store.poke32 _ _).poke32 _ _
    have run (k : State → Switch) := stores_plain h.alone ((there _).trans p1) ((there _).trans p2)
      (show Config.classFLevel q.cfg l = none by rw [h.store.cfg]; exact plain) k
    have list : q.mplAddr = s.mplAddr := by
      have cfg : q.cfg = s.cfg := h.store.cfg
      simp only [State.mplAddr, start, cfg]
    have walk := sameWalk_of_frames same frame1 frame list h.map
    refine ⟨{ (q.poke32 (v.extractLsb' 0 24) q.psd1Image).poke32 (v.extractLsb' 0 24 + 4) q.psd2Image with map := map }, ?_, ?_⟩
    · rw [State.interruptSwitch, switchRead_alone h.alone ((h.store.read _).trans hv), vectorAddr, run]
      exact newPsd_fails (frame.alone h.alone) (walk.newPsdFails.mpr fails) (fun n2 w => w.mark l n2) fun _ _ => rfl
    · refine ⟨State.poke32_wf (State.poke32_wf hm), ⟨same.mem, same.cfg, same.parity⟩, ?_⟩
      conv_lhs => rw [frame]
      rfl

/-- The same in PSW mode. -/
theorem pswSwitch_stops (hs : s.Alone) (hm : Memory.wf s.mem = true) (fails : s.PswLevelFails e l p) :
    ∃ r, (s.interruptStart l).pswSwitch l = .memory e r ∧ (s.interruptStart l).Stops p r s.map false := by
  have h := entryOf_interruptStart hs l
  generalize s.interruptStart l = q at h ⊢
  have there (a : Addr) : q.present a 4 = s.present a 4 := present_congr h.store.cfg 4 a
  rw [← h.map]
  rcases fails with ⟨bad, rfl⟩ | ⟨v, hv, ⟨rfl, absent, rfl⟩ | ⟨p1, rfl, bad⟩⟩
  · exact ⟨q, by rw [State.pswSwitch, switchRead_alone_error h.alone ((h.store.read _).trans bad)],
      (State.MemFrame.refl q).stops hm h.store⟩
  · refine ⟨q, ?_, (State.MemFrame.refl q).stops hm h.store⟩
    rw [State.pswSwitch, switchRead_alone h.alone ((h.store.read _).trans hv), vectorAddr,
      switchWrite_alone_absent h.alone ((there _).trans absent)]
  · have same : (s.poke32 (v.extractLsb' 0 24) (BitVec.ofNat 32 s.psd1Number)).SameStore (q.poke32 (v.extractLsb' 0 24) q.psd1Image) := by
      rw [h.psd1, psd1Image_eq]
      exact h.store.poke32 _ _
    refine ⟨q.poke32 (v.extractLsb' 0 24) q.psd1Image, ?_, ((State.MemFrame.refl q).poke32 _ _).stops (State.poke32_wf hm) same⟩
    rw [State.pswSwitch, switchRead_alone h.alone ((h.store.read _).trans hv), vectorAddr, switchWrite_alone h.alone ((there _).trans p1),
      switchRead_alone_error (poke32_alone h.alone _ _) ((same.read _).trans bad)]

theorem interruptEntry_psw_memory {r : State} (hm : s.mode = .psw) (h : (s.interruptStart l).pswSwitch l = .memory e r) :
    interruptEntry l s = ((r.noteMemError e).orStatus e.statusBits).trapHalt (levelVector l) := by
  unfold State.interruptStart at h
  unfold interruptEntry
  dsimp only
  rw [hm, h]

theorem interruptEntry_psd_memory {r : State} (hm : s.mode = .psd) (h : (s.interruptStart l).interruptSwitch l = .memory e r) :
    interruptEntry l s = trapEntry entryLimit (.machineCheck (.memory e)) (r.noteMemError e) := by
  rw [interruptEntry_psd hm, h, State.afterSwitch]

end

/-! ## LPSDCM -/

/-- A memory error in the map walk of a PSD load by an instruction. -/
theorem loadPsdAt_walkFails {s : State} {a : Addr} {n1 n2 : Word} {e : MemError} {map : Vector Half 32} (hs : s.Alone) (b : Bool)
    (k : State → State) (h1 : s.ReadsWord a n1) (h2 : s.ReadsWord (s.nextWord a) n2) (walks : ¬keepsMap n2) (fails : s.WalkFails n2 e map) :
    ∃ c, loadPsdAt true a k (s.withStop b) = raise (.machineCheck (.memory e)) (State.withStop { s with map := map } c) := by
  obtain ⟨b1, e1⟩ := h1.load b hs
  obtain ⟨b2, e2⟩ := h2.load b1 hs
  have e2 : (s.withStop b1).load32 ((s.withStop b1).nextWord a) = .ok n2 (s.withStop b2) := e2
  have walk : s.SameWalk ((s.withStop b2).noteWalk true n2) := ⟨rfl, rfl, rfl, rfl, rfl⟩
  have load := loadPsd_walkFails (s := (s.withStop b2).noteWalk true n2) n1 hs walks (by rw [walk.walkFails]; exact fails)
  refine ⟨((s.withStop b2).noteWalk true n2).stopHit, ?_⟩
  rw [loadPsdAt, e1, Res.finish_ok, e2, Res.finish_ok, load]
  rfl

end Machine

open Machine

/-- Settles O60: by where each entry stops, and what the Machine Check or the trap halt makes of it. -/
theorem memoryErrorsDuringEntry : Obligations.MemoryErrorsDuringEntry := by
  intro s e hm hs hc bits fifth word halts checked
  have checks {q p r : State} {map : Vector Half 32} {stored : Bool} {extra : Word} (h : s.EntryOf q) (stops : q.Stops p r map stored)
      (enabled : s.trapsEnabled = true) (n : Nat) (status : r.status = if stored then s.status &&& 0xFF else s.status ||| extra) :
      checked p (trapEntry (n + 1) (.machineCheck (.memory e)) (r.noteMemError e)) (word stored extra) map := by
    intro v n1 n2 hv b keeps
    have leaves := machineCheck_leaves (e := e) h stops n enabled hv b keeps
    rw [status] at leaves
    exact leaves
  have halted {q p r : State} {map : Vector Half 32} {stored : Bool} {extra : Word} {vector : Addr} (h : s.EntryOf q)
      (stops : q.Stops p r map stored) (area : s.present 0x530 20 = true) (even : vector.toNat % 2 = 0) (small : vector.toNat < 2 ^ 19)
      (status : r.status = if stored then s.status &&& 0xFF else s.status ||| extra) :
      halts p (((r.noteMemError e).orStatus e.statusBits).trapHalt vector) vector (word stored extra) ∧
        Memory.read32 (((r.noteMemError e).orStatus e.statusBits).trapHalt vector).mem 0x534 =
          if s.mode = .psd then s.psd2Image else Memory.read32 p.mem 0x534 := by
    have halt := halts_where_stopped h stops e area even small
    obtain ⟨-, psd1, psd2, -, mode, -, live, regs, active, priv, cc⟩ := stops.entryOf h
    obtain ⟨hregs, hpriv, hcc, -, -, hactive⟩ := halt.same
    have mem : r.mem = p.mem := stops.store.mem
    refine ⟨⟨halt.runState, halt.pc, hregs.trans regs, hpriv.trans priv, hcc.trans cc, hactive.trans active, halt.light, ?_, ?_, ?_⟩, ?_⟩
    · rw [halt.psd1, ← psd1Image_eq, ← psd1Image_eq]
      exact psd1
    · rw [halt.status, orStatus_statusWord, show (r.noteMemError e).liveBits = s.liveBits from live,
        show (r.noteMemError e).status = _ from status, memBits_eq]
    · intro x hx
      rw [halt.outside x hx, ← mem]
      rfl
    · rw [halt.psd2, show ((r.noteMemError e).orStatus e.statusBits).mode = s.mode from mode,
        show ((r.noteMemError e).orStatus e.statusBits).psd2Image = s.psd2Image from psd2, ← mem]
      rfl
  have trap {t : Trap} {p r : State} {map : Vector Half 32} {stored : Bool} (stops : ((s.abandon t).trapStart t).Stops p r map stored) :
      r.status = if stored then s.status &&& 0xFF else s.status ||| t.statusBits .psd := by
    rw [stops.status, trapStart_low, trapStart_status]
    rfl
  have level {l : Level} {p r : State} {map : Vector Half 32} (stops : (s.interruptStart l).Stops p r map false) :
      r.status = if false then s.status &&& 0xFF else s.status ||| 0 := by
    rw [stops.status]
    exact BitVec.or_zero.symm
  refine ⟨fun hmode enabled => ⟨fun t p stored map other fails => ?_, fun l p map fails => ?_, fun c p stored map area fails => ?_⟩,
    fun hmode hpriv m f s1 n1 n2 map hf h1 h2 walks fails => ?_, fun hmode area l p fails => ?_⟩
  · obtain ⟨r, switch, stops⟩ := trapSwitch_stops (entryOf_trapStart hs t) hm.1 (trapStart_statusWord (s.abandon t) t)
      (trapStart_low (s.abandon t) t) fails
    have run := trapEntry_memory (s := s.abandon t) 3 enabled other switch
    refine ⟨_, (raise_psd hc hmode).trans (congrArg _ run), checks (entryOf_trapStart hs t) stops enabled 2 (trap stops), ?_⟩
    rw [trapEntry_requesting]
    exact stops.requesting
  · obtain ⟨r, switch, stops⟩ := interruptSwitch_stops hs hm.1 fails
    rw [interruptEntry_psd_memory hmode switch]
    refine ⟨checks (entryOf_interruptStart hs l) stops enabled 3 (level stops), ?_⟩
    rw [trapEntry_requesting]
    exact stops.requesting
  · obtain ⟨r, switch, stops⟩ := trapSwitch_stops (entryOf_trapStart hs (.machineCheck c)) hm.1
      (trapStart_statusWord (s.abandon (.machineCheck c)) (.machineCheck c)) (trapStart_low (s.abandon (.machineCheck c)) (.machineCheck c)) fails
    have run := trapEntry_memory_check (s := s.abandon (.machineCheck c)) 3 enabled switch
    obtain ⟨halts, word2⟩ := halted (entryOf_trapStart hs (.machineCheck c)) stops area (vector := 0x184) (by decide) (by decide) (trap stops)
    rw [if_pos hmode] at word2
    exact ⟨_, (raise_psd hc hmode).trans (congrArg _ run), halts, word2⟩
  · have next := nextWord_doubleAddr (s := s) fun hx => addressLoop_small _ hf hx
    obtain ⟨b, rfl⟩ := State.effective_withStop hs hf
    rw [← next] at h2
    obtain ⟨c, run⟩ := loadPsdAt_walkFails hs b id h1 h2 walks fails
    refine ⟨c, ?_⟩
    show execLpsdcm m s = _
    rw [execLpsdcm, psdOnly_psd hmode, privileged_yes hpriv, hf, Res.finish_ok, run]
  · obtain ⟨r, switch, stops⟩ := pswSwitch_stops hs hm.1 fails
    obtain ⟨even, small⟩ := levelVector_small l
    obtain ⟨halts, word2⟩ := halted (entryOf_interruptStart hs l) stops area even small (level stops)
    rw [hmode] at word2
    rw [interruptEntry_psw_memory hmode switch]
    exact ⟨halts, word2⟩

end Sys2Proof
end

section
/-! PROOFS. The Execute instructions and their targets (51_control.md R505 to R508, D13). -/

namespace Sys2Proof
namespace Machine

/-- The targets an Execute takes: no other Execute, no RDSTS, no instruction of PSD mode alone (R505, D13). -/
def Executable (x : Instr) : Prop :=
  isPsdOnly x = false ∧ (∀ d, x ≠ .rdsts d ∧ x ≠ .exr d ∧ x ≠ .exrr d) ∧ ∀ a, x ≠ .exm a

/-- The state an Execute leaves once its target has completed. -/
def State.executed (s : State) : State := { s with execDepth := false }

theorem runTarget_of_executable {x : Instr} (h : Executable x) (s : State) : runTarget x s = exec x s := by
  obtain ⟨mode, other, exm⟩ := h
  cases x
  case lear | la | lmap | tmapr | lpsd | lpsdcm | svc | eae | dae | eci | dci | aci | daci | bei | uei | sio | tio | stpio | rschnl |
      hio | grio | rsctl | ecwcs | wcwcs => exact Bool.noConfusion mode
  case rdsts d => exact absurd rfl (other d).1
  case exr d => exact absurd rfl (other d).2.1
  case exrr d => exact absurd rfl (other d).2.2
  case exm a => exact absurd rfl (exm a)
  all_goals rfl

theorem runTarget_of_not_executable {x : Instr} (h : ¬Executable x) (s : State) : runTarget x s = raise .undefined s := by
  cases x
  case lear | la | lmap | tmapr | lpsd | lpsdcm | exr | exrr | exm | svc | rdsts | eae | dae | eci | dci | aci | daci | bei | uei |
      sio | tio | stpio | rschnl | hio | grio | rsctl | ecwcs | wcwcs => rfl
  all_goals exact absurd ⟨rfl, fun _ => ⟨nofun, nofun, nofun⟩, nofun⟩ h

/-- A raise abandons the Execute in progress, and ends with none. -/
theorem leaveExecute_raise (x : Trap) (s : State) : leaveExecute (raise x { s with execDepth := true }) = raise x s := by
  show leaveExecute (raise x s) = raise x s
  cases e : raise x s with
  | next t =>
    have depth : t.execDepth = false := (stays_raise_abandoned x s t e).depth rfl
    show (.next { t with execDepth := false } : Outcome) = .next t
    rw [← depth]
  | fault f => rfl
  | refused r => rfl

/-- What an Execute does, by the target its halfword or word decodes to. -/
structure Executes (o : Outcome) (target : Option Instr) (s : State) : Prop where
  completed : ∀ x, target = some x → Executable x → ∀ t, exec x { s with execDepth := true } = .next t → o = .next t.executed
  refused : ∀ x, target = some x → ¬Executable x → o = raise .undefined s
  unassigned : target = none → o = raise .undefined s

theorem executeTarget_executes (c : Code) (s : State) : Executes (executeTarget c s) (decode c) s where
  completed x hx allowed t ht := by
    unfold executeTarget
    rw [hx]
    show leaveExecute (runTarget x _) = _
    rw [runTarget_of_executable allowed, ht]
    rfl
  refused x hx allowed := by
    unfold executeTarget
    rw [hx]
    show leaveExecute (runTarget x _) = _
    rw [runTarget_of_not_executable allowed, leaveExecute_raise]
  unassigned h := by
    unfold executeTarget
    rw [h]

theorem raise_executes (s : State) : Executes (raise .undefined s) none s := ⟨nofun, nofun, fun _ => rfl⟩

/-- The instruction in the left position of a word: its first halfword, or the whole of it. -/
def leftTarget (w : Word) : Option Instr :=
  if isHalfword (w.extractLsb' 16 16) then decode (.half (w.extractLsb' 16 16)) else decode (.word w)

/-- The instruction in the right halfword of a word, which holds no word instruction. -/
def rightTarget (w : Word) : Option Instr :=
  if isHalfword (w.extractLsb' 0 16) then decode (.half (w.extractLsb' 0 16)) else none

theorem executeLeft_executes (w : Word) (s : State) : Executes (executeLeft w s) (leftTarget w) s := by
  unfold executeLeft leftTarget
  split <;> exact executeTarget_executes _ s

theorem executeRight_executes (w : Word) (s : State) : Executes (executeRight w s) (rightTarget w) s := by
  unfold executeRight rightTarget
  split
  · exact executeTarget_executes _ s
  · exact raise_executes s

theorem exec_exm_executes {s s1 : State} {e : Effective} {m : MemRef 19} {w : Word} (alone : s.Alone)
    (he : s.effective (m.ofFixed false).word = .ok e s1) (read : s.ReadsWord (wordAddr e.ea) w) :
    ∃ b, Executes (exec (.exm m) s) (if e.ea.getLsbD 1 then rightTarget w else leftTarget w) (s.withStop b) := by
  obtain ⟨a, rfl⟩ := State.effective_withStop alone he
  obtain ⟨b, load⟩ := read.load a alone
  refine ⟨b, ?_⟩
  show Executes (execExm m s) _ _
  rw [execExm, he, Res.finish_ok, load, Res.finish_ok]
  split
  · exact executeRight_executes w _
  · exact executeLeft_executes w _

/-- What an Execute of NOP, TRR and LI leaves. -/
def ExecutesMoves (i x : Instr) (s : State) : Prop :=
  (x = .nop → Completes i s s.executed) ∧
  (∀ a d, x = .trr a d → Completes i s ((s.setReg d (s.reg a)).setCc (signCc false (s.reg a).toInt)).executed) ∧
  (∀ d (v : Half), x = .li d v → Completes i s ((s.setReg d (BitVec.ofInt 32 v.toInt)).setCc (signCc false v.toInt)).executed)

theorem Executes.moves {i x : Instr} {s : State} {b : Bool} (h : Executes (exec i s) (some x) (s.withStop b)) : ExecutesMoves i x s := by
  refine ⟨?_, ?_, ?_⟩
  · rintro rfl
    exact ⟨b, h.completed _ rfl ⟨rfl, fun _ => ⟨nofun, nofun, nofun⟩, nofun⟩ _ rfl⟩
  · rintro a d rfl
    rw [← ccOf_eq_signCc]
    exact ⟨b, h.completed _ rfl ⟨rfl, fun _ => ⟨nofun, nofun, nofun⟩, nofun⟩ _ rfl⟩
  · rintro d v rfl
    have sign : signCc false v.toInt = ccOf false (BitVec.signExtend 32 v) := by
      rw [ccOf_eq_signCc, BitVec.toInt_signExtend_of_le (by decide)]
    rw [sign]
    exact ⟨b, h.completed _ rfl ⟨rfl, fun _ => ⟨nofun, nofun, nofun⟩, nofun⟩ _ rfl⟩

theorem Executes.moves_of_eq {i x : Instr} {s : State} (h : Executes (exec i s) (some x) s) : ExecutesMoves i x s :=
  Executes.moves (b := s.stopHit) h

end Machine
open Machine

/-- Settles O54: each Execute is its target taken from one halfword or word, and a target is the instruction it is, or
refused. -/
theorem executeInstructionsComplete : Obligations.ExecuteInstructionsComplete := by
  unfold Obligations.ExecuteInstructionsComplete
  intro s r m allowed done runs
  have exr : Executes (exec (.exr r) s) (leftTarget (s.reg r)) s := executeLeft_executes _ s
  have exrr : Executes (exec (.exrr r) s) (rightTarget (s.reg r)) s := executeRight_executes _ s
  have given {i x : Instr} {target : Option Instr} (h : Executes (exec i s) target s) (hx : target = some x) :
      runs i x ∧ (allowed x → ∀ t, exec x { s with execDepth := true } = .next t → exec i s = .next (done t)) ∧
      (¬allowed x → exec i s = raise .undefined s) := by
    subst hx
    exact ⟨h.moves_of_eq, fun ok => h.completed x rfl ok, h.refused x rfl⟩
  refine ⟨?_, ?_, ?_, ?_, ?_, ?_⟩
  · rintro h x rfl half hx
    exact given exr (by rw [leftTarget, if_pos half, hx])
  · intro half hx
    exact exr.unassigned (by rw [leftTarget, if_pos half, hx])
  · intro half
    have target : leftTarget (s.reg r) = decode (.word (s.reg r)) := by rw [leftTarget, half]; rfl
    exact ⟨fun x hx => given exr (target.trans hx), fun hx => exr.unassigned (target.trans hx)⟩
  · rintro h x rfl half hx
    exact given exrr (by rw [rightTarget, if_pos half, hx])
  · intro none
    refine exrr.unassigned ?_
    rw [rightTarget]
    split
    · next half => exact none.resolve_left (by rw [half]; decide)
    · rfl
  · intro e s1 w alone he read right h target
    obtain ⟨b, exm⟩ := exec_exm_executes alone he read
    have hright : right = e.ea.getLsbD 1 := (getLsbD_eq_decide e.ea 1).symm
    have htarget : (if e.ea.getLsbD 1 then rightTarget w else leftTarget w) = target := by
      simp only [target, h]
      rw [hright]
      cases e.ea.getLsbD 1 <;> rfl
    rw [htarget] at exm
    refine ⟨fun x hx => ?_, fun hx => ⟨b, exm.unassigned hx⟩⟩
    rw [hx] at exm
    exact ⟨exm.moves, b, fun ok => exm.completed x rfl ok, exm.refused x rfl⟩

end Sys2Proof
end

section
/-! PROOFS. The Class F instructions (52_interrupt.md R547 to R551, 53_input_output.md R573 to R594). -/

namespace Sys2Proof
namespace Machine

/-! ## The channel addressed -/

/-- The sum of register and constant, before it is cut to a word. -/
def State.classFNat (s : State) (r : Reg) (k : Half) : Nat := (if r = 0 then 0 else (s.reg r).toNat) + k.toNat

theorem classFSum_toNat (s : State) (r : Reg) (k : Half) : (s.classFSum r k).toNat = s.classFNat r k % 2 ^ 32 := by
  have ext : (BitVec.zeroExtend 32 k).toNat = k.toNat := BitVec.toNat_setWidth_of_le (by decide)
  rw [State.classFSum, BitVec.toNat_add, ext, State.classFNat]
  split <;> rfl

theorem classFChannel_eq (s : State) (r : Reg) (k : Half) :
    classFChannel (s.classFSum r k) = BitVec.ofNat 7 (s.classFNat r k / 256) := by
  rw [classFChannel, extract_eq_ofNat, classFSum_toNat]
  apply BitVec.eq_of_toNat_eq
  simp only [BitVec.toNat_ofNat]
  omega

theorem classFSub_eq (s : State) (r : Reg) (k : Half) : classFSub (s.classFSum r k) = BitVec.ofNat 7 (s.classFNat r k) := by
  rw [classFSub, extract_eq_ofNat, classFSum_toNat]
  apply BitVec.eq_of_toNat_eq
  simp only [BitVec.toNat_ofNat]
  omega

section
variable {s : State} {r : Reg} {k : Half} (hm : s.mode = .psd) (hr : s.cfg.role = .cpu) (hp : s.priv = true)
  (known : Channel → BitVec 7 → Outcome) (absent : State → State)
include hm hr hp

theorem classF_absent (h : Config.channel s.cfg (classFChannel (s.classFSum r k)) = none) :
    classF r k s known absent = .next (absent (s.setCc 2)) := by
  rw [classF, psdOnly_psd hm, cpuOnly_cpu hr, privileged_yes hp, h]
  rfl

theorem classF_other {ch : Channel} (h : Config.channel s.cfg (classFChannel (s.classFSum r k)) = some ch) (hc : ch.cls ≠ .classF) :
    classF r k s known absent = raise .undefined s := by
  rw [classF, psdOnly_psd hm, cpuOnly_cpu hr, privileged_yes hp, h]
  exact if_neg hc

theorem classF_known {ch : Channel} (h : Config.channel s.cfg (classFChannel (s.classFSum r k)) = some ch) (hc : ch.cls = .classF) :
    classF r k s known absent = known ch (classFSub (s.classFSum r k)) := by
  rw [classF, psdOnly_psd hm, cpuOnly_cpu hr, privileged_yes hp, h]
  exact if_pos hc

end

/-! ## The answer of a Class F channel -/

/-- The latches a Class F instruction sets, and the WCS interlock. -/
structure ClassFLatches where
  enabled : BitVec 128
  requesting : BitVec 128
  active : BitVec 128
  lock : Option (BitVec 7)

def State.latches (s : State) : ClassFLatches := ⟨s.enabled, s.requesting, s.active, s.wcsInterlock⟩

def State.withLatches (s : State) (l : ClassFLatches) : State :=
  { s with enabled := l.enabled, requesting := l.requesting, active := l.active, wcsInterlock := l.lock }

theorem withLatches_latches (s : State) : s.withLatches s.latches = s := rfl

/-- The interlock after any Class F instruction to channel `ch` (R587). -/
def State.released (s : State) (ch : Channel) : ClassFLatches := (s.releaseInterlock ch.device).latches

/-- What a Class F instruction leaves, by the channel's answer `a`: `done` are the latches of an accepted one, `passed`
the list address handed over with it, `slot` word 6 of the channel's block. -/
structure Answered (s t : State) (op : ClassFOp) (ch : Channel) (sub : BitVec 7) (passed : Option Addr) (slot : Addr)
    (done : ClassFLatches) (a : ClassFAnswer) : Prop where
  cc : t.cc = answerCc a
  command : t.channelOut = s.channelOut ++ [.classF op ch.device sub (if a = .activated ∨ a = .queued then passed else none)]
  frame : t.regs = s.regs ∧ t.pc = s.pc ∧ t.priv = s.priv ∧ t.mode = s.mode ∧ t.nonint = s.nonint
  accepted : a = .activated ∨ a = .queued → t.latches = done ∧ t.mem = s.mem
  reporting : a = .statusStored → op = .sio ∨ op = .tio ∨ op = .hio
  address : a = .statusStored → s.MemoryInv →
    Memory.read32 t.mem slot = BitVec.ofNat 32 (Config.channelStatus (s.freeIx + 1) ch.device).addr.toNat
  stored : a = .statusStored → t.enabled = s.enabled ∧ t.requesting = s.requesting &&& ~~~(1#128 <<< ch.level.toNat) ∧ t.active = s.active
  rejected : a ≠ .activated → a ≠ .queued → a ≠ .statusStored →
    t.enabled = s.enabled ∧ t.requesting = s.requesting ∧ t.active = s.active ∧ t.mem = s.mem

theorem answerAccepted_iff (a : ClassFAnswer) : answerAccepted a = true ↔ a = .activated ∨ a = .queued := by
  rw [answerAccepted, Bool.or_eq_true, decide_eq_true_eq, decide_eq_true_eq]

/-- Status is stored on the instructions that report it alone (R594). -/
theorem reports_of_statusStored {s : State} {op : ClassFOp} {ch : Channel} {sub : BitVec 7} (h : s.answer op ch sub = .statusStored) :
    op = .sio ∨ op = .tio ∨ op = .hio := by
  have reports : reportsStatus op = true := by
    unfold State.answer at h
    dsimp only at h
    split at h
    · cases h
    · next other =>
      rw [h] at other
      simpa using other
  cases op
  case sio => exact .inl rfl
  case tio => exact .inr (.inl rfl)
  case hio => exact .inr (.inr rfl)
  all_goals exact Bool.noConfusion reports

section
variable {s : State} {ch : Channel} {v w : Word} (alone : s.Alone) (hv : s.realRead (levelVector ch.level) = .ok v)
include alone hv

theorem iocla_alone (hw : s.realRead (v.extractLsb' 0 24 + 16) = .ok w) :
    s.iocla ch = .ok (w.extractLsb' 0 24) ((s.noteRead (levelVector ch.level)).noteRead (v.extractLsb' 0 24 + 16)) := by
  have noted : (s.noteRead (levelVector ch.level)).transact = s.noteRead (levelVector ch.level) := State.transact_of_bus alone
  have read : (s.noteRead (levelVector ch.level)).realRead (vectorAddr v + 16) = .ok w := hw
  rw [State.iocla, State.transact_of_bus alone]
  simp only [hv]
  rw [noted]
  simp only [read]
  rfl

/-- The processor's part of Status Stored: the address of the status goes to word 6 of the block. -/
theorem statusStored_alone (slot : s.present (v.extractLsb' 0 24 + 20) 4 = true) :
    statusStored ch s = .next (((((s.noteRead (levelVector ch.level)).channelStored (v.extractLsb' 0 24)
      (Config.channelStatus s.freeIx ch.device)).noteWrite (v.extractLsb' 0 24 + 20)).setRequesting ch.level false).setCc 4) := by
  have frame := statusStored_frame (s.noteRead (levelVector ch.level)) (Config.channelStatus s.freeIx ch.device)
  have there : ((s.noteRead (levelVector ch.level)).statusStored (Config.channelStatus s.freeIx ch.device)).present
      (v.extractLsb' 0 24 + 20) 4 = true :=
    (present_congr (s := s) (by rw [frame]; rfl) 4 _).trans slot
  have quiet := State.transact_of_bus (frame.alone alone)
  rw [statusStored, State.transact_of_bus alone]
  simp only [hv]
  rw [takeChannelStatus_eq]
  dsimp only
  rw [State.noteRead_freeIx, quiet, State.realWrite, vectorAddr, if_pos there, zeroExtend_eq_ofNat]
  rfl

end

/-- `q` is `s` once the channel is addressed and, where it has accepted a list, the list address is read. -/
structure State.Addressed (s q : State) : Prop where
  frame : q.regs = s.regs ∧ q.pc = s.pc ∧ q.priv = s.priv ∧ q.mode = s.mode ∧ q.nonint = s.nonint
  enabled : q.enabled = s.enabled
  requesting : q.requesting = s.requesting
  active : q.active = s.active
  mem : q.mem = s.mem

section
variable {s q : State} {op : ClassFOp} {ch : Channel} {sub : BitVec 7} {passed : Option Addr} {slot : Addr} {done : ClassFLatches}
  {a : ClassFAnswer} (hq : s.Addressed q)
include hq

theorem answered_accepted (accepted : a = .activated ∨ a = .queued)
    (command : q.channelOut = s.channelOut ++ [.classF op ch.device sub passed]) :
    Answered s ((q.withLatches done).setCc (answerCc a)) op ch sub passed slot done a where
  cc := rfl
  command := by rw [if_pos accepted]; exact command
  frame := hq.frame
  accepted _ := ⟨rfl, hq.mem⟩
  reporting h := by rw [h] at accepted; exact accepted.elim nofun nofun
  address h := by rw [h] at accepted; exact accepted.elim nofun nofun
  stored h := by rw [h] at accepted; exact accepted.elim nofun nofun
  rejected h1 h2 := absurd accepted (not_or.2 ⟨h1, h2⟩)

theorem answered_rejected (accepted : ¬(a = .activated ∨ a = .queued)) (stored : a ≠ .statusStored)
    (command : q.channelOut = s.channelOut ++ [.classF op ch.device sub none]) :
    Answered s (q.setCc (answerCc a)) op ch sub passed slot done a where
  cc := rfl
  command := by rw [if_neg accepted]; exact command
  frame := hq.frame
  accepted h := absurd h accepted
  reporting h := absurd h stored
  address h := absurd h stored
  stored h := absurd h stored
  rejected _ _ _ := ⟨hq.enabled, hq.requesting, hq.active, hq.mem⟩

theorem answered_stored {st : ChannelStatus} {icb : Addr} (reports : op = .sio ∨ op = .tio ∨ op = .hio)
    (hst : st = Config.channelStatus (s.freeIx + 1) ch.device)
    (command : q.channelOut = s.channelOut ++ [.classF op ch.device sub none]) :
    Answered s ((((q.channelStored icb st).noteWrite (icb + 20)).setRequesting ch.level false).setCc 4) op ch sub passed (icb + 20)
      done .statusStored := by
  have frame : State.MemFrame { q with freeIx := q.freeIx + 1 } (q.channelStored icb st) := (statusStored_frame q st).poke32 _ _
  have held (inv : s.MemoryInv) : Memory.read32 (q.channelStored icb st).mem (icb + 20) = BitVec.ofNat 32 st.addr.toNat :=
    read32_poke32 (State.realWriteOrLose_wf (State.realWriteOrLose_wf (hq.mem ▸ inv.1))) _ _
  obtain ⟨regs, pc, priv, mode, nonint⟩ := hq.frame
  generalize q.channelStored icb st = t at frame held
  have ht : t.channelOut = q.channelOut ∧ t.regs = q.regs ∧ t.pc = q.pc ∧ t.priv = q.priv ∧ t.mode = q.mode ∧ t.nonint = q.nonint ∧
      t.enabled = q.enabled ∧ t.requesting = q.requesting ∧ t.active = q.active := by
    rw [frame]
    exact ⟨rfl, rfl, rfl, rfl, rfl, rfl, rfl, rfl, rfl⟩
  obtain ⟨tout, tregs, tpc, tpriv, tmode, tnonint, ten, treq, tact⟩ := ht
  exact {
    cc := rfl
    command := tout.trans command
    frame := ⟨tregs.trans regs, tpc.trans pc, tpriv.trans priv, tmode.trans mode, tnonint.trans nonint⟩
    accepted := fun h => h.elim nofun nofun
    reporting := fun _ => reports
    address := fun _ inv => (held inv).trans (by rw [hst])
    stored := fun _ => ⟨ten.trans hq.enabled, congrArg (· &&& ~~~(1#128 <<< ch.level.toNat)) (treq.trans hq.requesting), tact.trans hq.active⟩
    rejected := fun _ _ h => absurd rfl h }

end

theorem State.Addressed.noteRead {s q : State} (h : s.Addressed q) (a : Addr) : s.Addressed (q.noteRead a) :=
  ⟨h.frame, h.enabled, h.requesting, h.active, h.mem⟩

theorem State.Addressed.emit {s q : State} (h : s.Addressed q) (c : ChannelCommand) : s.Addressed (q.emit c) :=
  ⟨h.frame, h.enabled, h.requesting, h.active, h.mem⟩

theorem emit_channelOut (s : State) (c : ChannelCommand) : (s.emit c).channelOut = s.channelOut ++ [c] := rfl

theorem noteRead_latches (s : State) (a : Addr) : (s.noteRead a).latches = s.latches := rfl

theorem emit_latches (s : State) (c : ChannelCommand) : (s.emit c).latches = s.latches := rfl

/-- The state in which a Class F channel is addressed. -/
def State.addressing (s : State) (ch : Channel) : State := { s.releaseInterlock ch.device with freeIx := s.freeIx + 1 }

theorem addressing_latches (s : State) (ch : Channel) : (s.addressing ch).latches = s.released ch := rfl

theorem addressing_channelOut (s : State) (ch : Channel) : (s.addressing ch).channelOut = s.channelOut := rfl

theorem addressed_addressing (s : State) (ch : Channel) : s.Addressed (s.addressing ch) :=
  ⟨⟨rfl, rfl, rfl, rfl, rfl⟩, rfl, rfl, rfl, rfl⟩

section
variable {s : State} {op : ClassFOp} {ch : Channel} {sub : BitVec 7} {list : Bool} {effect : State → State} {v w : Word}
  {done : ClassFLatches} (alone : s.Alone) (hv : s.realRead (levelVector ch.level) = .ok v)
  (hw : s.realRead (v.extractLsb' 0 24 + 16) = .ok w)
  (heffect : ∀ u : State, u.latches = s.released ch → effect u = u.withLatches done)
include alone hv hw heffect

theorem classFAccepted_answered {a : ClassFAnswer} (accepted : a = .activated ∨ a = .queued) :
    ∃ t, classFAccepted op ch sub list a effect (s.addressing ch) = .next t ∧
      Answered s t op ch sub (if list then some (w.extractLsb' 0 24) else none) (v.extractLsb' 0 24 + 20) done a := by
  have effected {u : State} (hu : u.latches = s.released ch) :
      (.next ((effect u).setCc (answerCc a)) : Outcome) = .next ((u.withLatches done).setCc (answerCc a)) := by
    rw [heffect u hu]
  have start := addressed_addressing s ch
  cases list with
  | true =>
    rw [classFAccepted, if_pos rfl, iocla_alone (s := s.addressing ch) alone hv hw, Res.finish_ok,
      effected (by rw [emit_latches, noteRead_latches, noteRead_latches, addressing_latches])]
    refine ⟨_, rfl, answered_accepted (((start.noteRead _).noteRead _).emit _) accepted ?_⟩
    rw [emit_channelOut, State.noteRead_channelOut, State.noteRead_channelOut, addressing_channelOut]
    rfl
  | false =>
    rw [classFAccepted, if_neg Bool.false_ne_true, effected (by rw [emit_latches, addressing_latches])]
    refine ⟨_, rfl, answered_accepted (start.emit _) accepted ?_⟩
    rw [emit_channelOut, addressing_channelOut]
    rfl

/-- A Class F channel that is addressed answers, and its answer says what the instruction leaves. -/
theorem classFAddressed_answered (slot : s.present (v.extractLsb' 0 24 + 20) 4 = true) :
    ∃ t a, classFAddressed op ch sub list effect s = .next t ∧
      Answered s t op ch sub (if list then some (w.extractLsb' 0 24) else none) (v.extractLsb' 0 24 + 20) done a := by
  have start : classFAddressed op ch sub list effect s =
      if answerAccepted (s.answer op ch sub) then classFAccepted op ch sub list (s.answer op ch sub) effect (s.addressing ch)
      else if s.answer op ch sub = .statusStored then statusStored ch ((s.addressing ch).emit (.classF op ch.device sub none))
      else .next (((s.addressing ch).emit (.classF op ch.device sub none)).setCc (answerCc (s.answer op ch sub))) := rfl
  rw [start]
  generalize ha : s.answer op ch sub = a
  by_cases accepted : a = .activated ∨ a = .queued
  · rw [if_pos ((answerAccepted_iff a).2 accepted)]
    obtain ⟨t, e, answered⟩ := classFAccepted_answered (op := op) (sub := sub) (list := list) alone hv hw heffect accepted
    exact ⟨t, a, e, answered⟩
  · rw [if_neg (mt (answerAccepted_iff a).1 accepted)]
    by_cases stored : a = .statusStored
    · rw [if_pos stored, statusStored_alone (s := (s.addressing ch).emit (.classF op ch.device sub none)) alone hv slot]
      exact ⟨_, _, rfl, answered_stored (((addressed_addressing s ch).emit _).noteRead _) (reports_of_statusStored (ha.trans stored)) rfl rfl⟩
    · rw [if_neg stored]
      exact ⟨_, _, rfl, answered_rejected ((addressed_addressing s ch).emit _) accepted stored rfl⟩

end

/-! ## The thirteen instructions -/

/-- The Class F instructions of one register and constant. -/
def classFInstrs (r : Reg) (k : Half) : List Instr :=
  [.eci r k, .dci r k, .aci r k, .daci r k, .sio r k, .tio r k, .stpio r k, .rschnl r k, .hio r k, .grio r k, .rsctl r k,
    .ecwcs r k, .wcwcs r k]

/-- Every one of them is the common sequence; DACI alone protects the next instruction where no channel is there. -/
theorem exec_eq_classF {i : Instr} {r : Reg} {k : Half} (s : State) (h : i ∈ classFInstrs r k) :
    ∃ known absent, exec i s = classF r k s known absent ∧
      absent (s.setCc 2) = { s with cc := 2, nonint := s.nonint || decide (i = .daci r k) } := by
  simp only [classFInstrs, List.mem_cons, List.not_mem_nil, or_false] at h
  have other (absurd : i ≠ .daci r k) : id (s.setCc 2) = { s with cc := 2, nonint := s.nonint || decide (i = .daci r k) } := by
    rw [decide_eq_false absurd, Bool.or_false]
    rfl
  have operation {op : ClassFOp} {list : Bool} {effect : Channel → State → State} (e : exec i s = channelOp op list effect r k s) :
      ∃ known, exec i s = classF r k s known id := ⟨_, e.trans (by rw [channelOp])⟩
  rcases h with rfl | rfl | rfl | rfl | rfl | rfl | rfl | rfl | rfl | rfl | rfl | rfl | rfl
  case inr.inr.inr.inl =>
    refine ⟨_, _, (show execDaci r k s = _ by rw [execDaci]), ?_⟩
    rw [decide_eq_true rfl, Bool.or_true]
    rfl
  case inr.inr.inr.inr.inr.inr.inr.inr.inr.inr.inr.inr => exact ⟨_, _, (show execWcwcs r k s = _ by rw [execWcwcs]), other nofun⟩
  all_goals
    obtain ⟨known, e⟩ := operation rfl
    exact ⟨known, id, e, other nofun⟩

section
variable {s : State} {r : Reg} {k : Half} {ch : Channel} {v w : Word} {done : ClassFLatches} (hm : s.mode = .psd)
  (hr : s.cfg.role = .cpu) (hp : s.priv = true) (at_ : Config.channel s.cfg (classFChannel (s.classFSum r k)) = some ch)
  (hc : ch.cls = .classF) (alone : s.Alone) (hv : s.realRead (levelVector ch.level) = .ok v)
  (hw : s.realRead (v.extractLsb' 0 24 + 16) = .ok w) (slot : s.present (v.extractLsb' 0 24 + 20) 4 = true)
include hm hr hp at_ hc alone hv hw slot

theorem channelOp_answered (op : ClassFOp) (list : Bool) (effect : Channel → State → State)
    (heffect : ∀ u : State, u.latches = s.released ch → effect ch u = u.withLatches done) :
    ∃ t a, channelOp op list effect r k s = .next t ∧ Answered s t op ch (classFSub (s.classFSum r k))
      (if list then some (w.extractLsb' 0 24) else none) (v.extractLsb' 0 24 + 20) done a := by
  rw [channelOp, classF_known hm hr hp _ _ at_ hc]
  exact classFAddressed_answered alone hv hw heffect slot

theorem execDaci_answered (heffect : ∀ u : State, u.latches = s.released ch → u.setActive ch.level false = u.withLatches done) :
    ∃ t a, execDaci r k s = .next t ∧ Answered { s with nonint := true } t .daci ch (classFSub (s.classFSum r k))
      none (v.extractLsb' 0 24 + 20) done a := by
  rw [execDaci, classF_known hm hr hp _ _ at_ hc]
  exact classFAddressed_answered (list := false) (s := { s with nonint := true }) alone hv hw heffect slot

theorem execWcwcs_answered (lock : s.wcsInterlock = some ch.device) :
    ∃ t a, execWcwcs r k s = .next t ∧ Answered { s with wcsInterlock := none } t .wcwcs ch (classFSub (s.classFSum r k))
      (some (w.extractLsb' 0 24)) (v.extractLsb' 0 24 + 20) { s.latches with lock := none } a := by
  rw [execWcwcs, classF_known hm hr hp _ _ at_ hc, if_pos lock]
  exact classFAddressed_answered (list := true) (s := { s with wcsInterlock := none }) alone hv hw (fun u h => by
    rw [show { s.latches with lock := none } = u.latches from h.symm, withLatches_latches]) slot

end

end Machine
open Machine

/-- Settles O57: no channel, a channel of another class, and the answers of a Class F channel. -/
theorem classFInstructionsComplete : Obligations.ClassFInstructionsComplete := by
  unfold Obligations.ClassFInstructionsComplete
  intro s r k hm hr hp sum number sub at_ all
  have channel {c : Option Channel} (h : at_ c) : Config.channel s.cfg (classFChannel (s.classFSum r k)) = c := by
    rw [classFChannel_eq]
    exact h
  have hsub : classFSub (s.classFSum r k) = sub := classFSub_eq s r k
  refine ⟨fun h i hi => ?_, fun ch h hc i hi => ?_, ?_⟩
  · obtain ⟨known, absent, e, ha⟩ := exec_eq_classF s hi
    rw [e, classF_absent hm hr hp _ _ (channel h), ha]
  · obtain ⟨known, absent, e, -⟩ := exec_eq_classF s hi
    rw [e, classF_other hm hr hp _ _ (channel h) hc]
  intro ch v w h hc alone hv hw slot bit answers rest
  have report {i : Instr} {op : ClassFOp} {list : Bool} {en rq ac : BitVec 128} {lock n : Option (BitVec 7)} {b : Bool}
      (hn : b = (s.nonint || decide (i = .daci r k)))
      (ans : ∃ t a, exec i s = .next t ∧ Answered { s with nonint := b, wcsInterlock := n } t op ch (classFSub (s.classFSum r k))
        (if list then some (w.extractLsb' 0 24) else none) (v.extractLsb' 0 24 + 20) ⟨en, rq, ac, lock⟩ a) :
      answers i op list en rq ac lock := by
    obtain ⟨t, a, e, ans⟩ := ans
    obtain ⟨regs, pc, priv, mode, nonint⟩ := ans.frame
    refine ⟨t, a, e, ans.cc, ?_, regs, pc, priv, mode, nonint.trans hn, fun ha => ?_,
      fun ha => ⟨ans.reporting ha, ans.address ha, ans.stored ha⟩,
      ans.rejected⟩
    · rw [ans.command, hsub]
      by_cases ha : a = .activated ∨ a = .queued <;> cases list <;> simp [ha]
    · obtain ⟨latches, mem⟩ := ans.accepted ha
      exact ⟨congrArg ClassFLatches.enabled latches, congrArg ClassFLatches.requesting latches, congrArg ClassFLatches.active latches,
        congrArg ClassFLatches.lock latches, mem⟩
  have plain {i : Instr} {op : ClassFOp} {list : Bool} {done : ClassFLatches} (effect : Channel → State → State)
      (hi : i ≠ .daci r k) (e : exec i s = channelOp op list effect r k s)
      (heffect : ∀ u : State, u.latches = s.released ch → effect ch u = u.withLatches done) :
      answers i op list done.enabled done.requesting done.active done.lock := by
    refine report (n := s.wcsInterlock) (b := s.nonint) (by rw [decide_eq_false hi, Bool.or_false]) ?_
    rw [e]
    exact channelOp_answered hm hr hp (channel h) hc alone hv hw slot op list effect heffect
  have still {op : ClassFOp} {list : Bool} (i : Instr) (hi : i ≠ .daci r k) (e : exec i s = channelOp op list (fun _ t => t) r k s) :
      answers i op list s.enabled s.requesting s.active rest :=
    plain (done := s.released ch) _ hi e fun u hu => by rw [← hu, withLatches_latches]
  refine ⟨?_, ?_, ?_, ?_, ?_, ?_, ?_, ?_, ?_, ?_, ?_, ?_, fun lock => ?_, fun lock => ?_⟩
  · exact plain (done := { s.released ch with enabled := s.enabled ||| bit }) _ nofun rfl fun u hu => by
      rw [← hu, show s.enabled = u.enabled from (congrArg ClassFLatches.enabled hu).symm]
      rfl
  · exact plain (done := { s.released ch with enabled := s.enabled &&& ~~~bit }) _ nofun rfl fun u hu => by
      rw [← hu, show s.enabled = u.enabled from (congrArg ClassFLatches.enabled hu).symm]
      rfl
  · exact plain (done := { s.released ch with active := s.active ||| bit }) _ nofun rfl fun u hu => by
      rw [← hu, show s.active = u.active from (congrArg ClassFLatches.active hu).symm]
      rfl
  · exact report (b := true) (n := s.wcsInterlock) (by rw [decide_eq_true rfl, Bool.or_true])
      (execDaci_answered (done := { s.released ch with active := s.active &&& ~~~bit }) hm hr hp (channel h) hc alone hv hw slot
        fun u hu => by
          rw [← hu, show s.active = u.active from (congrArg ClassFLatches.active hu).symm]
          rfl)
  · exact plain (done := { s.released ch with requesting := s.requesting &&& ~~~bit, active := s.active &&& ~~~bit }) _ nofun rfl
      fun u hu => by
        rw [← hu, show s.requesting = u.requesting from (congrArg ClassFLatches.requesting hu).symm,
          show s.active = u.active from (congrArg ClassFLatches.active hu).symm]
        rfl
  · exact plain (done := { s.released ch with lock := some ch.device }) _ nofun rfl fun u hu => by
      rw [← hu]
      rfl
  · exact still (.sio r k) nofun rfl
  · exact still (.tio r k) nofun rfl
  · exact still (.stpio r k) nofun rfl
  · exact still (.hio r k) nofun rfl
  · exact still (.grio r k) nofun rfl
  · exact still (.rsctl r k) nofun rfl
  · exact report (b := s.nonint) (n := none) (by rw [decide_eq_false nofun, Bool.or_false])
      (execWcwcs_answered hm hr hp (channel h) hc alone hv hw slot lock)
  · show execWcwcs r k s = _
    rw [execWcwcs, classF_known hm hr hp _ _ (channel h) hc, if_neg lock]

end Sys2Proof
end

section
/-! PROOFS. Floating-point words, and the rounding of an exact result (50_floating_point.md R481 to R484). -/

namespace Sys2Proof
namespace Machine

/-! ## Normalized words -/

theorem fpExponent_word (x : Word) : fpExponent x = fpMagnitude x / 16777216 := by
  rw [fpExponent, show (2 : Nat) ^ (32 - 8) = 16777216 by norm_num]

theorem fpFraction_word (x : Word) : fpFraction x = fpMagnitude x % 16777216 := by
  rw [fpFraction, show (2 : Nat) ^ (32 - 8) = 16777216 by norm_num]

theorem fpMagnitude_word (x : Word) : fpMagnitude x = if x.msb then 4294967296 - x.toNat else x.toNat := by
  rw [fpMagnitude, show (2 : Nat) ^ 32 = 4294967296 by norm_num]

theorem fpPack_word (neg : Bool) (e q : Nat) :
    fpPack 32 neg e q = if neg then -BitVec.ofNat 32 (e * 16777216 + q) else BitVec.ofNat 32 (e * 16777216 + q) := by
  rw [fpPack, show (2 : Nat) ^ (32 - 8) = 16777216 by norm_num, BitVec.ofNat_eq_ofNat, BitVec.zero_sub]

theorem fpNormalized_word (x : Word) : fpNormalized x = true ↔ x = 0 ∨ 1048576 ≤ fpFraction x := by
  rw [fpNormalized, Bool.or_eq_true, decide_eq_true_eq, decide_eq_true_eq, show (2 : Nat) ^ (32 - 12) = 1048576 by norm_num]

theorem fpFraction_lt (x : Word) : fpFraction x < 16777216 := by
  rw [fpFraction_word]
  omega

theorem neg_fpPack (neg : Bool) (e q : Nat) : 0 - fpPack 32 neg e q = fpPack 32 (!neg) e q := by
  rw [BitVec.ofNat_eq_ofNat, BitVec.zero_sub, fpPack_word, fpPack_word]
  cases neg with
  | false => rfl
  | true => exact BitVec.neg_neg

section
variable {neg : Bool} {e q : Nat} (he : e ≤ 127) (low : 0 < q) (high : q < 16777216)
include he low high

theorem fpPack_toNat : (fpPack 32 neg e q).toNat = if neg then 4294967296 - (e * 16777216 + q) else e * 16777216 + q := by
  rw [fpPack_word]
  cases neg with
  | false =>
    rw [if_neg Bool.false_ne_true, if_neg Bool.false_ne_true, BitVec.toNat_ofNat]
    omega
  | true =>
    rw [if_pos rfl, if_pos rfl, BitVec.toNat_neg, BitVec.toNat_ofNat]
    omega

theorem fpPack_msb : (fpPack 32 neg e q).msb = neg := by
  rw [BitVec.msb_eq_decide, fpPack_toNat he low high]
  cases neg with
  | false =>
    rw [decide_eq_false_iff_not, if_neg Bool.false_ne_true]
    omega
  | true =>
    rw [decide_eq_true_iff, if_pos rfl]
    omega

theorem fpMagnitude_pack : fpMagnitude (fpPack 32 neg e q) = e * 16777216 + q := by
  rw [fpMagnitude_word, fpPack_msb he low high, fpPack_toNat he low high]
  cases neg with
  | false => rw [if_neg Bool.false_ne_true, if_neg Bool.false_ne_true]
  | true =>
    rw [if_pos rfl, if_pos rfl]
    omega

theorem fpExponent_pack : fpExponent (fpPack 32 neg e q) = e := by
  rw [fpExponent_word, fpMagnitude_pack he low high]
  omega

theorem fpFraction_pack : fpFraction (fpPack 32 neg e q) = q := by
  rw [fpFraction_word, fpMagnitude_pack he low high]
  omega

theorem fpPack_ne_zero : fpPack 32 neg e q ≠ 0 := by
  intro h
  have fraction := fpFraction_pack (neg := neg) he low high
  rw [h, show fpFraction (0 : Word) = 0 by decide] at fraction
  omega

theorem fpInteger_pack : fpInteger (fpPack 32 neg e q) = (if neg then -1 else 1) * (q : Int) := by
  have fraction := fpFraction_pack (neg := neg) he low high
  rw [fpFraction] at fraction
  rw [fpInteger, fpPack_msb he low high, fraction]

end

theorem fpNormalized_pack {neg : Bool} {e q : Nat} (he : e ≤ 127) (low : 1048576 ≤ q) (high : q < 16777216) :
    fpNormalized (fpPack 32 neg e q) = true := by
  rw [fpNormalized_word, fpFraction_pack he (by omega) high]
  exact .inr low

/-- A normalized word is zero, or a sign, an exponent and a fraction with a leading digit (R481, R482). -/
theorem fpNormalized_cases {x : Word} (h : fpNormalized x = true) :
    x = 0 ∨ ∃ neg e q, e ≤ 127 ∧ 1048576 ≤ q ∧ q < 16777216 ∧ x = fpPack 32 neg e q := by
  refine ((fpNormalized_word x).1 h).imp id fun low => ?_
  have bound : x.toNat < 4294967296 := x.isLt
  have msb : x.msb = decide (2147483648 ≤ x.toNat) := BitVec.msb_eq_decide x
  have high := fpFraction_lt x
  have fraction := fpFraction_word x
  have exponent := fpExponent_word x
  have magnitude := fpMagnitude_word x
  have he : fpExponent x ≤ 127 := by
    by_cases top : 2147483648 ≤ x.toNat
    · rw [msb, decide_eq_true top, if_pos rfl] at magnitude
      omega
    · rw [msb, decide_eq_false top, if_neg Bool.false_ne_true] at magnitude
      omega
  refine ⟨x.msb, fpExponent x, fpFraction x, he, low, high, BitVec.eq_of_toNat_eq ?_⟩
  rw [fpPack_toNat he (by omega) high]
  by_cases top : 2147483648 ≤ x.toNat
  · rw [msb, decide_eq_true top, if_pos rfl] at magnitude ⊢
    omega
  · rw [msb, decide_eq_false top, if_neg Bool.false_ne_true] at magnitude ⊢
    omega

theorem fpSigned_eq (x : Word) : fpSigned x = fpInteger x := by
  rw [fpSigned, fpInteger, fpFraction]
  cases x.msb with
  | false => rw [if_neg Bool.false_ne_true, if_neg Bool.false_ne_true, one_mul]
  | true => rw [if_pos rfl, if_pos rfl, neg_one_mul]

theorem abs_fpInteger (x : Word) : |fpInteger x| = fpFraction x := by
  rw [← fpSigned_eq, fpSigned]
  split
  · rw [abs_neg, Nat.abs_cast]
  · rw [Nat.abs_cast]

theorem abs_fpInteger_lt (x : Word) : |fpInteger x| < 16777216 := by
  have := fpFraction_lt x
  rw [abs_fpInteger]
  omega

theorem le_abs_fpInteger {x : Word} (h : fpNormalized x = true) (nonzero : x ≠ 0) : 1048576 ≤ |fpInteger x| := by
  have := ((fpNormalized_word x).1 h).resolve_left nonzero
  rw [abs_fpInteger]
  omega

theorem fpInteger_ne_zero {x : Word} (h : fpNormalized x = true) (nonzero : x ≠ 0) : fpInteger x ≠ 0 := by
  intro zero
  have := le_abs_fpInteger h nonzero
  rw [zero, abs_zero] at this
  omega

/-! ## The value of a word -/

/-- The number a word stands for, times 16^70: its fraction's digits times 16 to the biased exponent (R481). -/
def fpValue (x : Word) : ℚ := fpInteger x * 16 ^ fpExponent x

theorem fpValue_zero : fpValue 0 = 0 := by
  rw [fpValue, show fpInteger (0 : Word) = 0 by decide, Int.cast_zero, zero_mul]

theorem fpValue_eq_zero {x : Word} (h : fpNormalized x = true) (zero : fpValue x = 0) : x = 0 := by
  by_contra nonzero
  exact mul_ne_zero (Int.cast_ne_zero.2 (fpInteger_ne_zero h nonzero)) (pow_ne_zero _ (by norm_num)) zero

theorem fpValue_pack {neg : Bool} {e q : Nat} (he : e ≤ 127) (low : 0 < q) (high : q < 16777216) :
    fpValue (fpPack 32 neg e q) = (if neg then -1 else 1) * (q * 16 ^ e) := by
  rw [fpValue, fpInteger_pack he low high, fpExponent_pack he low high]
  push_cast
  ring

theorem normal_exponent_le {q f : ℚ} {d e : ℤ} (hf : 1048576 ≤ f) (hq : q < 16777216) (h : q * 16 ^ d = f * 16 ^ e) : e ≤ d := by
  by_contra less
  have pos : (0 : ℚ) < 16 ^ d := by positivity
  have step : (16 : ℚ) ^ (d + 1) ≤ 16 ^ e := zpow_le_zpow_right₀ (by norm_num) (by omega)
  rw [zpow_add_one₀ (by norm_num)] at step
  have := calc
    q * 16 ^ d < 16777216 * 16 ^ d := by gcongr
    _ = 1048576 * (16 ^ d * 16) := by ring
    _ ≤ f * 16 ^ e := by gcongr
  exact absurd h this.ne

/-- A fraction with a leading digit, and its exponent, are determined by their product. -/
theorem normal_unique {q f : ℚ} {d e : ℤ} (lq : 1048576 ≤ q) (hq : q < 16777216) (lf : 1048576 ≤ f) (hf : f < 16777216)
    (h : q * 16 ^ d = f * 16 ^ e) : d = e ∧ q = f := by
  obtain rfl : d = e := le_antisymm (normal_exponent_le lq hf h.symm) (normal_exponent_le lf hq h)
  exact ⟨rfl, mul_right_cancel₀ (by positivity) h⟩

theorem sign_unique {m n : Bool} {u v : ℚ} (hu : 0 < u) (hv : 0 < v) (h : (if m then -1 else 1) * u = (if n then -1 else 1) * v) :
    m = n ∧ u = v := by
  cases m <;> cases n <;> simp only [Bool.false_eq_true, if_true, if_false] at h
  · exact ⟨rfl, by linarith⟩
  · exact absurd h (by linarith)
  · exact absurd h (by linarith)
  · exact ⟨rfl, by linarith⟩

/-! ## Results against an exact value -/

/-- The sign a result reports (R483). -/
def fpSignFor (c : Word) : FpSign := if c = 0 then .zero else if c.msb then .negative else .positive

/-- `y` is the exact value `v` rounded to a word: normalized, with its sign, no further from `v` than half a unit of its last
digit, and `v` itself wherever that is a normalized word. -/
structure FpRounds (y : FpResult 32) (v : ℚ) : Prop where
  normalized : y.exc = .none → fpNormalized y.result = true
  sign : y.exc = .none → y.sign = fpSignFor y.result
  near : y.exc = .none → 2 * |fpValue y.result - v| ≤ 16 ^ fpExponent y.result
  exact : ∀ c, fpNormalized c = true → fpValue c = v → y = ⟨c, .none, fpSignFor c⟩

theorem fpZero_rounds : FpRounds (fpZero 32) 0 where
  normalized _ := by decide
  sign _ := by decide
  near _ := by
    rw [show (fpZero 32).result = 0 from rfl, fpValue_zero, sub_self, abs_zero, mul_zero]
    positivity
  exact c hc h := by
    rw [fpValue_eq_zero hc h]
    rfl

/-- Two normalized words of one value are one word (R482). -/
theorem fpValue_injective {b c : Word} (hb : fpNormalized b = true) (hc : fpNormalized c = true) (h : fpValue c = fpValue b) : c = b := by
  obtain rfl | ⟨n, e, q, he, low, high, rfl⟩ := fpNormalized_cases hb
  · exact fpValue_eq_zero hc (h.trans fpValue_zero)
  obtain rfl | ⟨m, d, f, hd, lf, hf, rfl⟩ := fpNormalized_cases hc
  · exact (fpValue_eq_zero hb (h.symm.trans fpValue_zero)).symm
  rw [fpValue_pack hd (by omega) hf, fpValue_pack he (by omega) high] at h
  have qpos : (1048576 : ℚ) ≤ q := by exact_mod_cast low
  have fpos : (1048576 : ℚ) ≤ f := by exact_mod_cast lf
  obtain ⟨rfl, magnitudes⟩ := sign_unique (by positivity) (by positivity) h
  rw [← zpow_natCast, ← zpow_natCast] at magnitudes
  obtain ⟨exps, fractions⟩ := normal_unique fpos (by exact_mod_cast hf) qpos (by exact_mod_cast high) magnitudes
  rw [Nat.cast_injective exps, Nat.cast_injective fractions]

theorem fpLarger_rounds {v : Word} (h : fpNormalized v = true) : FpRounds (fpLarger v) (fpValue v) where
  normalized _ := h
  sign _ := rfl
  near _ := by
    rw [show (fpLarger v).result = v from rfl, sub_self, abs_zero, mul_zero]
    positivity
  exact c hc e := by
    rw [fpValue_injective h hc e]
    rfl

/-! ## Rounding -/

/-- The fraction of a result before rounding lies between 1/16 and 1. -/
structure FpExact.Proper (x : FpExact) : Prop where
  below : x.num < x.den
  above : x.den ≤ 16 * x.num

/-- The fraction in half units of the sixth digit, the rest cut off. -/
def FpExact.halves (x : FpExact) : Nat := x.num * 33554432 / x.den

/-- The exact result before rounding. -/
def FpExact.value (x : FpExact) : ℚ := (if x.neg then -1 else 1) * ((x.num / x.den : ℚ) * 16 ^ (x.exp + 6))

/-- The rounding of a word is the fraction to the nearest sixth digit, a half upwards (R484 (3)). -/
theorem digits_add_guard (x : FpExact) (op : FpOp) (a b : Word) :
    x.digits 32 + (fpRoundsUp 32 op a b x).toNat = (x.halves + 1) / 2 := by
  have half : x.num * 16777216 / x.den = x.halves / 2 := by
    rw [FpExact.halves, Nat.div_div_eq_div_mul, show x.num * 33554432 = x.num * 16777216 * 2 by ring, Nat.mul_div_mul_right _ _ (by decide)]
  rw [FpExact.digits, fpRoundsUp, if_pos rfl, FpExact.guard, show (2 : Nat) ^ (32 - 8) = 16777216 by norm_num, half,
    show x.num * 16777216 * 2 / x.den = x.halves by rw [FpExact.halves, Nat.mul_assoc]]
  by_cases odd : x.halves % 2 = 1
  · rw [decide_eq_true odd, Bool.toNat_true]
    omega
  · rw [decide_eq_false odd, Bool.toNat_false]
    omega

theorem fpRound_word (x : FpExact) (op : FpOp) (a b : Word) :
    fpRound 32 op a b x = if (x.halves + 1) / 2 = 16777216 then (1048576, x.exp + 1) else ((x.halves + 1) / 2, x.exp) := by
  rw [fpRound, digits_add_guard, show (2 : Nat) ^ (32 - 8) = 16777216 by norm_num, show (2 : Nat) ^ (32 - 12) = 1048576 by norm_num]

theorem fpException_none {e : Int} : fpException e = .none ↔ 0 ≤ e ∧ e ≤ 127 := by
  unfold fpException
  split
  · exact ⟨nofun, fun h => by omega⟩
  · split
    · exact ⟨nofun, fun h => by omega⟩
    · exact ⟨fun _ => by omega, fun _ => rfl⟩

theorem fpDeliver_none {n : Nat} {op : FpOp} {a b : BitVec n} {x : FpExact} (h : fpException (fpRound n op a b x).2 = .none) :
    fpDeliver n op a b x = ⟨fpPack n x.neg (fpRound n op a b x).2.toNat (fpRound n op a b x).1, .none, fpSign x.neg⟩ := by
  rw [fpDeliver, h]

theorem fpDeliver_exc {n : Nat} (op : FpOp) (a b : BitVec n) (x : FpExact) :
    (fpDeliver n op a b x).exc = fpException (fpRound n op a b x).2 := by
  rw [fpDeliver]
  split
  · next h => exact h.symm
  · rfl

section
variable {x : FpExact} (proper : x.Proper)
include proper

theorem FpExact.Proper.den_pos : (0 : ℚ) < x.den := by
  have := proper.below
  exact_mod_cast (by omega : 0 < x.den)

theorem FpExact.Proper.halves_bounds : 2097152 ≤ x.halves ∧ x.halves < 33554432 := by
  obtain ⟨below, above⟩ := proper
  have pos : 0 < x.den := by omega
  rw [FpExact.halves]
  exact ⟨(Nat.le_div_iff_mul_le pos).2 (by omega), (Nat.div_lt_iff_lt_mul pos).2 (by omega)⟩

theorem FpExact.Proper.fraction_bounds : (1 : ℚ) / 16 ≤ x.num / x.den ∧ (x.num / x.den : ℚ) < 1 := by
  have pos := proper.den_pos
  have above : (x.den : ℚ) ≤ 16 * x.num := by exact_mod_cast proper.above
  exact ⟨by rw [le_div_iff₀ pos]; linarith, by rw [div_lt_one pos]; exact_mod_cast proper.below⟩

/-- The rounded fraction differs from the exact one by half a unit at most. -/
theorem FpExact.Proper.abs_rounded_sub : |2 * (((x.halves + 1) / 2 : Nat) : ℚ) - x.num / x.den * 33554432| ≤ 1 := by
  have pos := proper.den_pos
  have nat : 0 < x.den := by exact_mod_cast pos
  have lower : (x.halves : ℚ) ≤ x.num / x.den * 33554432 := by
    rw [div_mul_eq_mul_div, le_div_iff₀ pos]
    exact_mod_cast Nat.div_mul_le_self (x.num * 33554432) x.den
  have upper : x.num / x.den * 33554432 < (x.halves : ℚ) + 1 := by
    rw [div_mul_eq_mul_div, div_lt_iff₀ pos]
    exact_mod_cast Nat.lt_mul_of_div_lt (Nat.lt_succ_self _) nat
  have low : (x.halves : ℚ) ≤ 2 * (((x.halves + 1) / 2 : Nat) : ℚ) := by exact_mod_cast (by omega : x.halves ≤ 2 * ((x.halves + 1) / 2))
  have high : 2 * (((x.halves + 1) / 2 : Nat) : ℚ) ≤ x.halves + 1 := by exact_mod_cast (by omega : 2 * ((x.halves + 1) / 2) ≤ x.halves + 1)
  rw [abs_le]
  constructor <;> linarith

end

section
variable {x : FpExact} {op : FpOp} {a b : Word} (proper : x.Proper)
include proper

/-- A carry out of the fraction moves a digit into the exponent and leaves the value (R482). -/
theorem fpRound_bounds : 1048576 ≤ (fpRound 32 op a b x).1 ∧ (fpRound 32 op a b x).1 < 16777216 ∧ x.exp ≤ (fpRound 32 op a b x).2 ∧
    ((fpRound 32 op a b x).1 : ℚ) * 16 ^ (fpRound 32 op a b x).2 = ((x.halves + 1) / 2 : Nat) * 16 ^ x.exp := by
  have bounds := proper.halves_bounds
  rw [fpRound_word]
  split
  · next carry =>
    rw [carry, zpow_add_one₀ (by norm_num)]
    exact ⟨by omega, by omega, by omega, by push_cast; ring⟩
  · exact ⟨by omega, by omega, le_refl _, rfl⟩

theorem fpDeliver_pack (h : (fpDeliver 32 op a b x).exc = .none) : ∃ e q : Nat, e ≤ 127 ∧ 1048576 ≤ q ∧ q < 16777216 ∧ x.exp ≤ e ∧
    fpDeliver 32 op a b x = ⟨fpPack 32 x.neg e q, .none, fpSign x.neg⟩ ∧ (q : ℚ) * 16 ^ e = ((x.halves + 1) / 2 : Nat) * 16 ^ x.exp := by
  obtain ⟨low, high, above, value⟩ := fpRound_bounds (op := op) (a := a) (b := b) proper
  rw [fpDeliver_exc] at h
  obtain ⟨pos, le⟩ := fpException_none.1 h
  have exponent : (((fpRound 32 op a b x).2.toNat : ℕ) : ℤ) = (fpRound 32 op a b x).2 := Int.toNat_of_nonneg pos
  refine ⟨(fpRound 32 op a b x).2.toNat, (fpRound 32 op a b x).1, by omega, low, high, by omega, fpDeliver_none h, ?_⟩
  rw [← value, ← zpow_natCast, exponent]

/-- The delivered result is the exact one, rounded. -/
theorem fpDeliver_rounds : FpRounds (fpDeliver 32 op a b x) x.value := by
  refine ⟨fun h => ?_, fun h => ?_, fun h => ?_, fun c hc h => ?_⟩
  · obtain ⟨e, q, he, low, high, -, y, -⟩ := fpDeliver_pack proper h
    rw [y]
    exact fpNormalized_pack he low high
  · obtain ⟨e, q, he, low, high, -, y, -⟩ := fpDeliver_pack proper h
    rw [y]
    show fpSign x.neg = fpSignFor (fpPack 32 x.neg e q)
    rw [fpSignFor, if_neg (fpPack_ne_zero he (by omega) high), fpPack_msb he (by omega) high]
    rfl
  · obtain ⟨e, q, he, low, high, above, y, value⟩ := fpDeliver_pack proper h
    rw [y]
    show 2 * |fpValue (fpPack 32 x.neg e q) - x.value| ≤ 16 ^ fpExponent (fpPack 32 x.neg e q)
    rw [fpValue_pack he (by omega) high, fpExponent_pack he (by omega) high, value, FpExact.value, ← mul_sub, abs_mul]
    have unit : |(if x.neg then -1 else 1 : ℚ)| = 1 := by cases x.neg <;> simp
    have scale : (((x.halves + 1) / 2 : Nat) : ℚ) * 16 ^ x.exp - x.num / x.den * 16 ^ (x.exp + 6) =
        (2 * (((x.halves + 1) / 2 : Nat) : ℚ) - x.num / x.den * 33554432) / 2 * 16 ^ x.exp := by
      rw [zpow_add₀ (by norm_num)]
      norm_num
      ring
    have pos : (0 : ℚ) < 16 ^ x.exp := by positivity
    rw [unit, one_mul, scale, abs_mul, abs_div, abs_of_pos pos, abs_two]
    calc
      _ = |2 * (((x.halves + 1) / 2 : Nat) : ℚ) - x.num / x.den * 33554432| * 16 ^ x.exp := by ring
      _ ≤ 1 * 16 ^ x.exp := by gcongr; exact proper.abs_rounded_sub
      _ ≤ 16 ^ e := by
        rw [one_mul, ← zpow_natCast]
        exact zpow_le_zpow_right₀ (by norm_num) above
  · obtain ⟨above, below⟩ := proper.fraction_bounds
    have pos : (0 : ℚ) < x.num / x.den := by linarith
    have spread : (x.num / x.den : ℚ) * 16 ^ (x.exp + 6) = x.num / x.den * 16777216 * 16 ^ x.exp := by
      rw [zpow_add₀ (by norm_num)]
      norm_num
      ring
    rw [FpExact.value, spread] at h
    obtain rfl | ⟨n, e, q, he, low, high, rfl⟩ := fpNormalized_cases hc
    · rw [fpValue_zero] at h
      have scaled : (0 : ℚ) < x.num / x.den * 16777216 * 16 ^ x.exp := by positivity
      exact absurd h.symm (mul_ne_zero (by split <;> norm_num) scaled.ne')
    · have qpos : (1048576 : ℚ) ≤ q := by exact_mod_cast low
      rw [fpValue_pack he (by omega) high] at h
      obtain ⟨rfl, magnitudes⟩ := sign_unique (by positivity) (by positivity) h
      rw [← zpow_natCast] at magnitudes
      obtain ⟨exps, fractions⟩ := normal_unique qpos (by exact_mod_cast high) (by linarith) (by linarith) magnitudes
      have whole : x.halves = 2 * q := by
        rw [eq_comm, div_mul_eq_mul_div, div_eq_iff proper.den_pos.ne'] at fractions
        have nat : x.num * 16777216 = q * x.den := by exact_mod_cast fractions
        have den : 0 < x.den := by exact_mod_cast proper.den_pos
        rw [FpExact.halves, show x.num * 33554432 = 2 * q * x.den by linarith, Nat.mul_div_cancel _ den]
      have rounded : fpRound 32 op a b x = (q, x.exp) := by
        rw [fpRound_word, whole, if_neg (by omega), show (2 * q + 1) / 2 = q by omega]
      have none : fpException (fpRound 32 op a b x).2 = .none := by
        rw [rounded, ← exps]
        exact fpException_none.2 (by omega)
      rw [fpDeliver_none none, rounded, ← exps, fpSignFor, if_neg (fpPack_ne_zero he (by omega) high), fpPack_msb he (by omega) high]
      rfl

end

/-! ## Multiply and divide -/

theorem sign_mul (m n : Bool) : (if (m != n) then -1 else 1 : ℚ) = (if m then -1 else 1) * (if n then -1 else 1) := by
  cases m <;> cases n <;> norm_num

/-- MUL delivers the product, rounded (R490). -/
theorem fpMul_rounds {a b : Word} (ha : fpNormalized a = true) (hb : fpNormalized b = true) :
    FpRounds (fpMul 32 a b) (fpValue a * fpValue b / 16 ^ 70) := by
  rw [fpMul]
  split
  · next zero =>
    have product : fpValue a * fpValue b / 16 ^ 70 = 0 := by
      rcases zero with rfl | rfl <;> rw [fpValue_zero] <;> norm_num
    rw [product]
    exact fpZero_rounds
  · next nonzero =>
    obtain ⟨anz, bnz⟩ := not_or.1 nonzero
    obtain ⟨m, d, p, hd, lp, hp, rfl⟩ := (fpNormalized_cases ha).resolve_left anz
    obtain ⟨n, e, q, he, lq, hq, rfl⟩ := (fpNormalized_cases hb).resolve_left bnz
    dsimp only
    rw [fpFraction_pack hd (by omega) hp, fpFraction_pack he (by omega) hq, fpExponent_pack hd (by omega) hp, fpExponent_pack he (by omega) hq,
      fpPack_msb hd (by omega) hp, fpPack_msb he (by omega) hq, fpValue_pack hd (by omega) hp, fpValue_pack he (by omega) hq,
      show fpDigits 32 = 6 from rfl]
    have low : 1048576 * 1048576 ≤ p * q := Nat.mul_le_mul lp lq
    have high : p * q < 16777216 * 16777216 := Nat.mul_lt_mul'' hp hq
    have product {k : ℕ} {x : ℤ} (h : (k : ℤ) + d + e = x + 76) :
        (if m then -1 else 1 : ℚ) * (p * 16 ^ d) * ((if n then -1 else 1) * (q * 16 ^ e)) / 16 ^ 70 =
          (if (m != n) then -1 else 1) * (((p * q : ℕ) : ℚ) / (16 ^ k : ℕ) * 16 ^ (x + 6)) := by
      have exponent : x + 6 = (k : ℤ) + d + e + (-70) := by omega
      rw [sign_mul, exponent, zpow_add₀ (by norm_num), zpow_add₀ (by norm_num), zpow_add₀ (by norm_num), zpow_neg, zpow_natCast, zpow_natCast,
        zpow_natCast]
      push_cast
      field_simp
      norm_num
    by_cases short : p * q < 16 ^ (2 * 6 - 1)
    · rw [decide_eq_true short, if_pos rfl, if_pos rfl, product (k := 11) (x := d + e - 64 - 1) (by omega)]
      exact fpDeliver_rounds (x := ⟨m != n, p * q, 16 ^ (2 * 6 - 1), d + e - 64 - 1⟩) ⟨short, (by omega : 16 ^ (2 * 6 - 1) ≤ 16 * (p * q))⟩
    · rw [decide_eq_false short, if_neg Bool.false_ne_true, if_neg Bool.false_ne_true, product (k := 12) (x := d + e - 64) (by omega)]
      exact fpDeliver_rounds (x := ⟨m != n, p * q, 16 ^ (2 * 6), d + e - 64⟩)
        ⟨(by omega : p * q < 16 ^ (2 * 6)), (by omega : 16 ^ (2 * 6) ≤ 16 * (p * q))⟩

/-- DIV by a divisor that is not zero delivers the quotient, rounded (R492). -/
theorem fpDiv_rounds {a b : Word} (ha : fpNormalized a = true) (hb : fpNormalized b = true) (bnz : b ≠ 0) :
    FpRounds (fpDiv 32 a b) (fpValue a * 16 ^ 70 / fpValue b) := by
  rw [fpDiv]
  split
  · next zero =>
    rw [zero, fpValue_zero, zero_mul, zero_div]
    exact fpZero_rounds
  · next anz =>
    obtain ⟨m, d, p, hd, lp, hp, rfl⟩ := (fpNormalized_cases ha).resolve_left anz
    obtain ⟨n, e, q, he, lq, hq, rfl⟩ := (fpNormalized_cases hb).resolve_left bnz
    dsimp only
    rw [fpFraction_pack hd (by omega) hp, fpFraction_pack he (by omega) hq, fpExponent_pack hd (by omega) hp, fpExponent_pack he (by omega) hq,
      fpPack_msb hd (by omega) hp, fpPack_msb he (by omega) hq, fpValue_pack hd (by omega) hp, fpValue_pack he (by omega) hq]
    have qpos : (q : ℚ) ≠ 0 := by exact_mod_cast (by omega : q ≠ 0)
    have quotient {k D : ℕ} {x : ℤ} (hD : D = 16 ^ k * q) (h : (d : ℤ) + k = x - 64 + e) :
        (if m then -1 else 1 : ℚ) * (p * 16 ^ d) * 16 ^ 70 / ((if n then -1 else 1) * (q * 16 ^ e)) =
          (if (m != n) then -1 else 1) * ((p : ℚ) / D * 16 ^ (x + 6)) := by
      have exponent : x + 6 = (k : ℤ) + d + 70 + (-e) := by omega
      have unit : ((if n then -1 else 1 : ℚ))⁻¹ = if n then -1 else 1 := by cases n <;> norm_num
      rw [sign_mul, exponent, zpow_add₀ (by norm_num), zpow_add₀ (by norm_num), zpow_add₀ (by norm_num), zpow_neg, zpow_natCast, zpow_natCast,
        zpow_natCast, div_eq_mul_inv, mul_inv, unit, hD]
      push_cast
      field_simp
      norm_num
    by_cases short : p < q
    · rw [decide_eq_true short, if_pos rfl, if_pos rfl, quotient (k := 0) (D := q) (x := d - e + 64) (by omega) (by omega)]
      exact fpDeliver_rounds (x := ⟨m != n, p, q, d - e + 64⟩) ⟨short, (by omega : q ≤ 16 * p)⟩
    · rw [decide_eq_false short, if_neg Bool.false_ne_true, if_neg Bool.false_ne_true,
        quotient (k := 1) (D := 16 * q) (x := d - e + 64 + 1) (by omega) (by omega)]
      exact fpDeliver_rounds (x := ⟨m != n, p, 16 * q, d - e + 64 + 1⟩) ⟨(by omega : p < 16 * q), (by omega : 16 * q ≤ 16 * p)⟩

/-! ## Add and subtract -/

theorem hexLength_bounds {v : Nat} (h : v ≠ 0) : 16 ^ (hexLength v - 1) ≤ v ∧ v < 16 ^ hexLength v := by
  have low := Nat.log2_self_le h
  have high := Nat.lt_log2_self (n := v)
  have digits (k : Nat) : (16 : Nat) ^ k = 2 ^ (4 * k) := by rw [pow_mul]; norm_num
  rw [hexLength, digits, digits]
  exact ⟨(Nat.pow_le_pow_right (by decide) (by omega)).trans low, high.trans_le (Nat.pow_le_pow_right (by decide) (by omega))⟩

section
variable {op : FpOp} {a b : Word} {m : Nat} {v : Int}

/-- The result before rounding of a sum `v` that is not zero, in units of exponent `m`. -/
def fpSumExact (m : Nat) (v : Int) : FpExact :=
  ⟨decide (v < 0), v.natAbs, 16 ^ hexLength v.natAbs, (m : Int) - 6 + hexLength v.natAbs⟩

theorem fpSumExact_proper (h : v ≠ 0) : (fpSumExact m v).Proper := by
  obtain ⟨low, high⟩ := hexLength_bounds (Int.natAbs_ne_zero.2 h)
  refine ⟨high, ?_⟩
  show 16 ^ hexLength v.natAbs ≤ 16 * v.natAbs
  calc
    16 ^ hexLength v.natAbs = 16 * 16 ^ (hexLength v.natAbs - 1) := by
      rw [← pow_succ', Nat.sub_add_cancel (by rw [hexLength]; omega)]
    _ ≤ 16 * v.natAbs := by gcongr

theorem fpSumExact_value (h : v ≠ 0) : (fpSumExact m v).value = v * 16 ^ m := by
  have signed : (if decide (v < 0) then -1 else 1 : ℚ) * v.natAbs = v := by
    by_cases neg : v < 0
    · rw [decide_eq_true neg, if_pos rfl, Nat.cast_natAbs, abs_of_neg neg]
      push_cast
      ring
    · rw [decide_eq_false neg, if_neg Bool.false_ne_true, Nat.cast_natAbs, abs_of_nonneg (by omega), one_mul]
  have exponent : (m : Int) - 6 + hexLength v.natAbs + 6 = m + hexLength v.natAbs := by omega
  show (if decide (v < 0) then -1 else 1 : ℚ) *
    ((v.natAbs / ((16 ^ hexLength v.natAbs : ℕ) : ℚ)) * 16 ^ ((m : Int) - 6 + hexLength v.natAbs + 6)) = _
  rw [exponent, zpow_add₀ (by norm_num), zpow_natCast, zpow_natCast, ← signed]
  push_cast
  field_simp

theorem fpSum_eq (h : v ≠ 0) : fpSum 32 op a b m v = fpDeliver 32 op a b (fpSumExact m v) := by
  rw [fpSum, if_neg h]
  rfl

theorem fpSum_rounds : FpRounds (fpSum 32 op a b m v) (v * 16 ^ m) := by
  by_cases h : v = 0
  · rw [fpSum, if_pos h, h, Int.cast_zero, zero_mul]
    exact fpZero_rounds
  · rw [fpSum_eq h, ← fpSumExact_value h]
    exact fpDeliver_rounds (fpSumExact_proper h)

/-- A sum of many digits has a large exponent. -/
theorem le_exponent_fpSum {k : Nat} (large : 16 ^ (k + 5) ≤ |v|) (none : (fpSum 32 op a b m v).exc = .none) :
    m + k ≤ fpExponent (fpSum 32 op a b m v).result := by
  have h : v ≠ 0 := by
    rintro rfl
    rw [abs_zero] at large
    exact absurd large (not_le.2 (by positivity))
  rw [fpSum_eq h] at none ⊢
  obtain ⟨e, q, he, low, high, above, y, -⟩ := fpDeliver_pack (fpSumExact_proper h) none
  rw [y]
  show m + k ≤ fpExponent (fpPack 32 _ e q)
  rw [fpExponent_pack he (by omega) high]
  have digits : k + 5 < hexLength v.natAbs := by
    refine (Nat.pow_lt_pow_iff_right (by decide : 1 < 16)).1 (lt_of_le_of_lt ?_ (hexLength_bounds (Int.natAbs_ne_zero.2 h)).2)
    rw [Int.abs_eq_natAbs] at large
    exact_mod_cast large
  have exponent : (m : Int) - 6 + hexLength v.natAbs ≤ e := above
  omega

end

end Machine
end Sys2Proof
end

section
/-! PROOFS. Floating-point addition, and what FP_ARITH gives on normalized words (50_floating_point.md R484 to R493). -/

namespace Sys2Proof
namespace Machine

/-- `y` is the sum `v` to within two units of its last digit: normalized, with its sign, and `v` itself wherever that is a
normalized word. -/
structure FpSums (y : FpResult 32) (v : ℚ) : Prop where
  normalized : y.exc = .none → fpNormalized y.result = true
  sign : y.exc = .none → y.sign = fpSignFor y.result
  near : y.exc = .none → |fpValue y.result - v| < 2 * 16 ^ fpExponent y.result
  exact : ∀ c, fpNormalized c = true → fpValue c = v → y = ⟨c, .none, fpSignFor c⟩

theorem FpRounds.sums {y : FpResult 32} {v : ℚ} (h : FpRounds y v) : FpSums y v where
  normalized := h.normalized
  sign := h.sign
  near none := by
    have near := h.near none
    have pos : (0 : ℚ) < 16 ^ fpExponent y.result := by positivity
    linarith
  exact := h.exact

/-! ## The digits that alignment shifts out -/

/-- What alignment makes of digits past the guard digit moves the fraction by less than one unit of the guard digit. -/
theorem abs_fpAlign_sub_le (out : ShiftedOut) (k : Nat) (f : Int) : |fpAlign 32 out k f - f| ≤ 16 ^ (k - 1) := by
  have pos : (0 : Int) < 16 ^ (k - 1) := by positivity
  unfold fpAlign
  rw [show fpGuardDigits 32 = 1 from rfl]
  dsimp only
  generalize (16 : Int) ^ (k - 1) = u at pos ⊢
  have split := Int.mul_tdiv_add_tmod f u
  have bound : |f.tmod u| < u ∧ |f.sign * u - f.tmod u| ≤ u := by
    rcases lt_trichotomy f 0 with neg | rfl | nonneg
    · have h1 := Int.tmod_nonneg u (a := -f) (by omega)
      have h2 := Int.tmod_lt_of_pos (-f) pos
      rw [Int.neg_tmod] at h1 h2
      rw [Int.sign_eq_neg_one_of_neg neg, abs_lt, abs_le]
      omega
    · rw [Int.zero_tmod, Int.sign_zero, zero_mul, sub_self, abs_zero]
      omega
    · have h1 := Int.tmod_nonneg u nonneg.le
      have h2 := Int.tmod_lt_of_pos f pos
      rw [Int.sign_eq_one_of_pos nonneg, abs_lt, abs_le]
      omega
  obtain ⟨dropped, carried⟩ := bound
  split
  · rw [sub_self, abs_zero]
    exact pos.le
  · cases out with
    | kept =>
      rw [sub_self, abs_zero]
      exact pos.le
    | dropped =>
      show |f.tdiv u * u - f| ≤ u
      rw [show f.tdiv u * u - f = -(f.tmod u) by linarith, abs_neg]
      exact dropped.le
    | carried =>
      show |(f.tdiv u + f.sign) * u - f| ≤ u
      rw [show (f.tdiv u + f.sign) * u - f = f.sign * u - f.tmod u by linarith]
      exact carried

theorem fpAlign_of_dvd (out : ShiftedOut) {k : Nat} {f : Int} (h : 16 ^ (k - 1) ∣ f) : fpAlign 32 out k f = f := by
  unfold fpAlign
  rw [show fpGuardDigits 32 = 1 from rfl]
  exact if_pos (Int.tmod_eq_zero_of_dvd h)

/-- Where a sum is a number of six digits, the digits alignment shifts out are zero. -/
theorem shifted_out_zero {f s c : Int} {m k e : Nat} (hf : |f| < 16777216) (hs : 2 ≤ k → 1048576 ≤ |s|) (hc : |c| < 16777216)
    (h : c * 16 ^ e = f * 16 ^ m + s * 16 ^ (m + k)) : 16 ^ (k - 1) ∣ f := by
  by_cases near : k < 2
  · rw [show k - 1 = 0 by omega, pow_zero]
    exact one_dvd f
  obtain ⟨j, rfl⟩ : ∃ j, k = j + 2 := ⟨k - 2, by omega⟩
  replace hs := hs (by omega)
  have large : m + j + 1 ≤ e := by
    by_contra less
    have unit : (0 : Int) < 16 ^ (m + j) := by positivity
    have sum : |s| * 16 ^ (m + j + 2) ≤ |c| * 16 ^ e + |f| * 16 ^ m := by
      have pow (x : Int) (n : Nat) : |x| * 16 ^ n = |x * 16 ^ n| := by rw [abs_mul, abs_pow]; rfl
      rw [pow, pow, pow, show s * 16 ^ (m + j + 2) = c * 16 ^ e - f * 16 ^ m by rw [h]; ring]
      exact abs_sub _ _
    have first : |c| * 16 ^ e ≤ 16777216 * 16 ^ (m + j) :=
      mul_le_mul hc.le (pow_le_pow_right₀ (by norm_num) (by omega)) (by positivity) (by norm_num)
    have second : |f| * 16 ^ m ≤ 16777216 * 16 ^ (m + j) :=
      mul_le_mul hf.le (pow_le_pow_right₀ (by norm_num) (by omega)) (by positivity) (by norm_num)
    have third : 1048576 * 16 ^ (m + j + 2) ≤ |s| * 16 ^ (m + j + 2) := by gcongr
    rw [show (16 : Int) ^ (m + j + 2) = 256 * 16 ^ (m + j) by ring] at third sum
    linarith
  have divides : (16 : Int) ^ m * 16 ^ (j + 1) ∣ 16 ^ m * f := by
    rw [← pow_add, show 16 ^ m * f = c * 16 ^ e - s * 16 ^ (m + (j + 2)) by rw [h]; ring]
    exact dvd_sub (Dvd.dvd.mul_left (pow_dvd_pow _ large) _) (Dvd.dvd.mul_left (pow_dvd_pow _ (by omega)) _)
  exact (mul_dvd_mul_iff_left (by positivity)).1 divides

theorem abs_sub_lt_of_near {x t d u : ℚ} (pos : 0 < u) (near : 2 * |x - (t + d)| ≤ u) (moved : |d| ≤ u) : |x - t| < 2 * u := by
  have both := abs_add_le (x - (t + d)) d
  rw [show x - (t + d) + d = x - t by ring] at both
  linarith

section
variable {op : FpOp} {a b : Word} {m : Nat} {f s : Int} (hf : |f| < 16777216)
include hf

theorem shifted_out_zero_of_value {k : Nat} (hs : 2 ≤ k → 1048576 ≤ |s|) {c : Word} (h : fpValue c = f * 16 ^ m + s * 16 ^ (m + k)) :
    16 ^ (k - 1) ∣ f := by
  rw [fpValue] at h
  exact shifted_out_zero hf hs (abs_fpInteger_lt c) (by exact_mod_cast h)

/-- Numbers far apart do not cancel. -/
theorem abs_aligned_ge {k : Nat} (hk : 2 ≤ k) (hs : 1048576 ≤ |s|) (out : ShiftedOut) :
    16 ^ (k - 1 + 5) ≤ |fpAlign 32 out k f + s * 16 ^ k| := by
  obtain ⟨j, rfl⟩ : ∃ j, k = j + 2 := ⟨k - 2, by omega⟩
  have moved := abs_fpAlign_sub_le out (j + 2) f
  have unit : (1 : Int) ≤ 16 ^ j := one_le_pow₀ (by norm_num)
  rw [show j + 2 - 1 = j + 1 by omega, pow_succ] at moved
  have high : |s * 16 ^ (j + 2)| ≤ |fpAlign 32 out (j + 2) f + s * 16 ^ (j + 2)| + (|fpAlign 32 out (j + 2) f - f| + |f|) := by
    have whole := abs_sub (fpAlign 32 out (j + 2) f + s * 16 ^ (j + 2)) (fpAlign 32 out (j + 2) f)
    have part := abs_add_le (fpAlign 32 out (j + 2) f - f) f
    rw [add_sub_cancel_left] at whole
    rw [sub_add_cancel] at part
    linarith
  have low : 1048576 * (16 ^ j * 256) ≤ |s * 16 ^ (j + 2)| := by
    rw [abs_mul, abs_of_pos (by positivity : (0 : Int) < 16 ^ (j + 2)), show (16 : Int) ^ (j + 2) = 16 ^ j * 256 by ring]
    gcongr
  rw [show j + 2 - 1 + 5 = j + 6 by omega, show (16 : Int) ^ (j + 6) = 16 ^ j * 16777216 by ring]
  linarith

/-- The sum of a fraction `s` and a fraction `f` aligned to it by `k` digits. -/
theorem fpSum_aligned (k : Nat) (out : ShiftedOut) (hs : 2 ≤ k → 1048576 ≤ |s|) :
    FpSums (fpSum 32 op a b m (fpAlign 32 out k f + s * 16 ^ k)) (f * 16 ^ m + s * 16 ^ (m + k)) := by
  have rounds := fpSum_rounds (op := op) (a := a) (b := b) (m := m) (v := fpAlign 32 out k f + s * 16 ^ k)
  have aligned : ((fpAlign 32 out k f + s * 16 ^ k : Int) : ℚ) * 16 ^ m =
      f * 16 ^ m + s * 16 ^ (m + k) + (fpAlign 32 out k f - f : Int) * 16 ^ m := by
    push_cast
    ring
  refine ⟨rounds.normalized, rounds.sign, fun none => ?_, fun c hc h => ?_⟩
  · have near := rounds.near none
    rw [aligned] at near
    have shifted : |((fpAlign 32 out k f - f : Int) : ℚ) * 16 ^ m| ≤
        16 ^ fpExponent (fpSum 32 op a b m (fpAlign 32 out k f + s * 16 ^ k)).result := by
      by_cases close : k < 2
      · have whole : fpAlign 32 out k f = f := fpAlign_of_dvd out (by
          rw [show k - 1 = 0 by omega, pow_zero]
          exact one_dvd f)
        rw [whole, sub_self, Int.cast_zero, zero_mul, abs_zero]
        positivity
      · have exponent := le_exponent_fpSum (k := k - 1) (abs_aligned_ge hf (by omega) (hs (by omega)) out) none
        have moved : |((fpAlign 32 out k f - f : Int) : ℚ)| ≤ 16 ^ (k - 1) := by exact_mod_cast abs_fpAlign_sub_le out k f
        rw [abs_mul, abs_of_pos (by positivity : (0 : ℚ) < 16 ^ m)]
        calc
          _ ≤ (16 : ℚ) ^ (k - 1) * 16 ^ m := by gcongr
          _ = 16 ^ (m + (k - 1)) := by rw [pow_add, mul_comm]
          _ ≤ _ := pow_le_pow_right₀ (by norm_num) exponent
    exact abs_sub_lt_of_near (by positivity) near shifted
  · have whole := fpAlign_of_dvd out (shifted_out_zero_of_value hf hs h)
    refine rounds.exact c hc (h.trans ?_)
    rw [aligned, whole, sub_self, Int.cast_zero, zero_mul, add_zero]

/-- The larger of two numbers more than six digits apart stands for their sum. -/
theorem fpLarger_sums {x : Word} (hx : fpNormalized x = true) (far : m + 7 ≤ fpExponent x) :
    FpSums (fpLarger x) (f * 16 ^ m + fpValue x) := by
  have larger := fpLarger_rounds hx
  refine ⟨larger.normalized, larger.sign, fun _ => ?_, fun c hc h => ?_⟩
  · show |fpValue x - (f * 16 ^ m + fpValue x)| < 2 * 16 ^ fpExponent x
    have small : |(f : ℚ)| ≤ 16777216 := by exact_mod_cast hf.le
    rw [show fpValue x - (f * 16 ^ m + fpValue x) = -(f * 16 ^ m) by ring, abs_neg, abs_mul, abs_of_pos (by positivity : (0 : ℚ) < 16 ^ m)]
    calc
      |(f : ℚ)| * 16 ^ m ≤ 16777216 * 16 ^ m := by gcongr
      _ ≤ 16 ^ (m + 7) := by
        rw [pow_add]
        have pos : (0 : ℚ) < 16 ^ m := by positivity
        linarith
      _ ≤ 16 ^ fpExponent x := pow_le_pow_right₀ (by norm_num) far
      _ < 2 * 16 ^ fpExponent x := by
        have pos : (0 : ℚ) < 16 ^ fpExponent x := by positivity
        linarith
  · obtain ⟨k, hk⟩ : ∃ k, fpExponent x = m + k := ⟨fpExponent x - m, by omega⟩
    have nonzero : x ≠ 0 := by
      rintro rfl
      rw [show fpExponent (0 : Word) = 0 by decide] at far
      omega
    have value : fpValue x = fpInteger x * 16 ^ (m + k) := by rw [fpValue, hk]
    have divides := shifted_out_zero_of_value hf (fun _ => le_abs_fpInteger hx nonzero) (by rw [h, value])
    have zero : f = 0 := by
      refine Int.eq_zero_of_abs_lt_dvd ((pow_dvd_pow 16 (by omega : 6 ≤ k - 1)).trans divides) (hf.trans_le (by norm_num))
    refine larger.exact c hc (h.trans ?_)
    rw [zero, Int.cast_zero, zero_mul, zero_add]

end

/-! ## Addition -/

/-- The second operand of an addition or subtraction (R486, R488). -/
def fpAddend (neg : Bool) (b : Word) : Word := if neg then 0 - b else b

section
variable {neg : Bool} {b : Word} (hb : fpNormalized b = true)
include hb

theorem fpAddend_facts : fpNormalized (fpAddend neg b) = true ∧ fpExponent (fpAddend neg b) = fpExponent b ∧
    fpInteger (fpAddend neg b) = (if neg then - fpInteger b else fpInteger b) := by
  cases neg with
  | false => exact ⟨hb, rfl, rfl⟩
  | true =>
    show fpNormalized (0 - b) = true ∧ fpExponent (0 - b) = fpExponent b ∧ fpInteger (0 - b) = - fpInteger b
    obtain rfl | ⟨n, e, q, he, low, high, rfl⟩ := fpNormalized_cases hb
    · decide
    · rw [neg_fpPack, fpExponent_pack he (by omega) high, fpExponent_pack he (by omega) high, fpInteger_pack he (by omega) high,
        fpInteger_pack he (by omega) high]
      refine ⟨fpNormalized_pack he low high, rfl, ?_⟩
      cases n <;> simp

end

theorem fpAdd_word (op : FpOp) (neg : Bool) {a b : Word} (hb : fpNormalized b = true) : fpAdd 32 op neg a b =
    if 6 < fpExponent a - fpExponent b then fpLarger a
    else if 6 < fpExponent b - fpExponent a then fpLarger (fpAddend neg b)
    else if fpExponent a ≤ fpExponent b then
      fpSum 32 op a b (fpExponent a) (fpAlign 32 (Config.fpShiftedOut 32 op a b) (fpExponent b - fpExponent a) (fpInteger a) +
        fpInteger (fpAddend neg b) * 16 ^ (fpExponent b - fpExponent a))
    else
      fpSum 32 op a b (fpExponent b) (fpAlign 32 (Config.fpShiftedOut 32 op a b) (fpExponent a - fpExponent b) (fpInteger (fpAddend neg b)) +
        fpInteger a * 16 ^ (fpExponent a - fpExponent b)) := by
  obtain ⟨-, -, integer⟩ := fpAddend_facts (neg := neg) hb
  rw [fpAdd, show fpLimit 32 = 6 from rfl, fpSigned_eq, fpSigned_eq, integer, fpAddend, add_comm (fpAlign 32 _ _ (if neg then _ else _))]

theorem le_abs_fpInteger_of_exponent {x : Word} (hx : fpNormalized x = true) (h : 2 ≤ fpExponent x) : 1048576 ≤ |fpInteger x| := by
  refine le_abs_fpInteger hx ?_
  rintro rfl
  rw [show fpExponent (0 : Word) = 0 by decide] at h
  omega

/-- ADD and SUB give the sum, to within what alignment shifts out (R486, R488). -/
theorem fpAdd_sums (op : FpOp) (neg : Bool) {a b : Word} (ha : fpNormalized a = true) (hb : fpNormalized b = true) :
    FpSums (fpAdd 32 op neg a b) (fpValue a + fpValue (fpAddend neg b)) := by
  obtain ⟨hx, exponent, -⟩ := fpAddend_facts (neg := neg) hb
  rw [fpAdd_word op neg hb, ← exponent]
  generalize fpAddend neg b = x at hx
  split
  · rw [add_comm, fpValue.eq_def x]
    exact fpLarger_sums (abs_fpInteger_lt x) ha (by omega)
  · split
    · rw [fpValue.eq_def a]
      exact fpLarger_sums (abs_fpInteger_lt a) hx (by omega)
    · split
      · have sum := fpSum_aligned (op := op) (a := a) (b := b) (m := fpExponent a) (s := fpInteger x) (abs_fpInteger_lt a)
          (fpExponent x - fpExponent a) (Config.fpShiftedOut 32 op a b) fun _ => le_abs_fpInteger_of_exponent hx (by omega)
        rwa [show fpExponent a + (fpExponent x - fpExponent a) = fpExponent x by omega] at sum
      · have sum := fpSum_aligned (op := op) (a := a) (b := b) (m := fpExponent x) (s := fpInteger a) (abs_fpInteger_lt x)
          (fpExponent a - fpExponent x) (Config.fpShiftedOut 32 op a b) fun _ => le_abs_fpInteger_of_exponent ha (by omega)
        rw [show fpExponent x + (fpExponent a - fpExponent x) = fpExponent a by omega] at sum
        rw [add_comm (fpValue a)]
        exact sum

theorem fpValue_addend_false (b : Word) : fpValue (fpAddend false b) = fpValue b := rfl

theorem fpValue_addend_true {b : Word} (hb : fpNormalized b = true) : fpValue (fpAddend true b) = - fpValue b := by
  obtain ⟨-, exponent, integer⟩ := fpAddend_facts (neg := true) hb
  rw [fpValue, exponent, integer, if_pos rfl, Int.cast_neg, neg_mul, fpValue]

section
variable {a b : Word} (ha : fpNormalized a = true) (hb : fpNormalized b = true)
include ha hb

theorem fpArith_add : FpSums (fpArith 32 .add a b) (fpValue a + fpValue b) := by
  have sum : fpArith 32 .add a b = fpAdd 32 .add false a b := by
    rw [fpArith, ha, hb, if_neg (by decide)]
  rw [sum]
  exact fpAdd_sums .add false ha hb

theorem fpArith_sub : FpSums (fpArith 32 .sub a b) (fpValue a - fpValue b) := by
  have difference : fpArith 32 .sub a b = fpAdd 32 .sub true a b := by
    rw [fpArith, ha, hb, if_neg (by decide)]
  rw [difference, sub_eq_add_neg, ← fpValue_addend_true hb]
  exact fpAdd_sums .sub true ha hb

theorem fpArith_mul : FpRounds (fpArith 32 .mul a b) (fpValue a * fpValue b / 16 ^ 70) := by
  have product : fpArith 32 .mul a b = fpMul 32 a b := by
    rw [fpArith, ha, hb, if_neg (by decide)]
  rw [product]
  exact fpMul_rounds ha hb

theorem fpArith_div (hz : b ≠ 0) : FpRounds (fpArith 32 .div a b) (fpValue a * 16 ^ 70 / fpValue b) := by
  have quotient : fpArith 32 .div a b = fpDiv 32 a b := by
    rw [fpArith, ha, hb, if_neg (by decide)]
    exact if_neg hz
  rw [quotient]
  exact fpDiv_rounds ha hb hz

theorem fpArith_normalizes {op : FpOp} (hz : op = .div → b ≠ 0) (none : (fpArith 32 op a b).exc = .none) :
    fpNormalized (fpArith 32 op a b).result = true ∧ (fpArith 32 op a b).sign = fpSignFor (fpArith 32 op a b).result := by
  cases op with
  | add => exact ⟨(fpArith_add ha hb).normalized none, (fpArith_add ha hb).sign none⟩
  | sub => exact ⟨(fpArith_sub ha hb).normalized none, (fpArith_sub ha hb).sign none⟩
  | mul => exact ⟨(fpArith_mul ha hb).normalized none, (fpArith_mul ha hb).sign none⟩
  | div => exact ⟨(fpArith_div ha hb (hz rfl)).normalized none, (fpArith_div ha hb (hz rfl)).sign none⟩

end

theorem fpValue_ne_zero {x : Word} (h : fpNormalized x = true) (nonzero : x ≠ 0) : fpValue x ≠ 0 :=
  fun zero => nonzero (fpValue_eq_zero h zero)

end Machine
open Machine

/-- Settles O48: each operation gives the normalized word that is its exact value. -/
theorem floatingPointExactResults : Obligations.FloatingPointExactResults := by
  unfold Obligations.FloatingPointExactResults
  intro op a b c ha hb hc h
  cases op with
  | add =>
    refine (fpArith_add ha hb).exact c hc ?_
    rw [fpValue, fpValue, fpValue]
    exact_mod_cast h
  | sub =>
    refine (fpArith_sub ha hb).exact c hc ?_
    rw [fpValue, fpValue, fpValue]
    exact_mod_cast h
  | mul =>
    refine (fpArith_mul ha hb).exact c hc ?_
    rw [eq_div_iff (by positivity), fpValue, fpValue, fpValue]
    have product : (fpInteger c * 16 ^ (fpExponent c + 70) : ℚ) = fpInteger a * fpInteger b * 16 ^ (fpExponent a + fpExponent b) := by
      exact_mod_cast h
    rw [pow_add, pow_add] at product
    linarith
  | div =>
    obtain ⟨hz, h⟩ := h
    refine (fpArith_div ha hb hz).exact c hc ?_
    rw [eq_div_iff (fpValue_ne_zero hb hz), fpValue, fpValue, fpValue]
    have quotient : (fpInteger c * fpInteger b * 16 ^ (fpExponent c + fpExponent b) : ℚ) = fpInteger a * 16 ^ (fpExponent a + 70) := by
      exact_mod_cast h
    rw [pow_add, pow_add] at quotient
    linarith

/-- Settles O59: each operation rounds its exact value. -/
theorem floatingPointRounding : Obligations.FloatingPointRounding := by
  unfold Obligations.FloatingPointRounding
  intro op a b ha hb hz x c none
  obtain ⟨normalized, sign⟩ := fpArith_normalizes ha hb hz none
  refine ⟨normalized, sign, ?_⟩
  cases op with
  | add =>
    have near := (fpArith_add ha hb).near none
    rw [fpValue, fpValue, fpValue] at near
    dsimp only
    exact_mod_cast near
  | sub =>
    have near := (fpArith_sub ha hb).near none
    rw [fpValue, fpValue, fpValue] at near
    dsimp only
    exact_mod_cast near
  | mul =>
    have near := (fpArith_mul ha hb).near none
    rw [fpValue, fpValue, fpValue, show fpArith 32 .mul a b = x from rfl, show x.result = c from rfl] at near
    have scaled := mul_le_mul_of_nonneg_right near (by positivity : (0 : ℚ) ≤ 16 ^ 70)
    have difference : (fpInteger c * 16 ^ fpExponent c - fpInteger a * 16 ^ fpExponent a * (fpInteger b * 16 ^ fpExponent b) / 16 ^ 70 : ℚ) *
        16 ^ 70 =
        fpInteger c * 16 ^ (fpExponent c + 70) - fpInteger a * fpInteger b * 16 ^ (fpExponent a + fpExponent b) := by
      rw [sub_mul, div_mul_cancel₀ _ (by positivity), pow_add, pow_add]
      ring
    have size : |(16 : ℚ) ^ 70| = 16 ^ 70 := abs_of_pos (by positivity)
    rw [mul_assoc, ← size, ← abs_mul, size, difference, ← pow_add] at scaled
    dsimp only
    exact_mod_cast scaled
  | div =>
    have near := (fpArith_div ha hb (hz rfl)).near none
    have bnz := fpValue_ne_zero hb (hz rfl)
    have scaled := mul_le_mul_of_nonneg_right near (abs_nonneg (fpValue b))
    rw [show fpArith 32 .div a b = x from rfl, show x.result = c from rfl, mul_assoc, ← abs_mul, sub_mul, div_mul_cancel₀ _ bnz] at scaled
    have magnitude : |fpValue b| = |(fpInteger b : ℚ)| * 16 ^ fpExponent b := by
      rw [fpValue, abs_mul, abs_of_pos (by positivity : (0 : ℚ) < 16 ^ fpExponent b)]
    have difference : fpValue c * fpValue b - fpValue a * 16 ^ 70 =
        fpInteger c * fpInteger b * 16 ^ (fpExponent c + fpExponent b) - fpInteger a * 16 ^ (fpExponent a + 70) := by
      rw [fpValue, fpValue, fpValue, pow_add, pow_add]
      ring
    rw [difference, magnitude, mul_left_comm, ← pow_add] at scaled
    dsimp only
    exact_mod_cast scaled

end Sys2Proof
end
